-- ==== Sys2Proof/Word.lean ====
section
/-! DEFINITION. The word types of the block and their plainest arithmetic (spec/00_scope.md R9). -/

namespace Sys2Proof

/-- A byte: 8 bits, bit 7 the most significant (R9). -/
abbrev Byte := BitVec 8

/-- A raw measurement value: 20 bits, unsigned (spec/00_scope.md R6, `RAW_BITS`). -/
abbrev Raw := BitVec 20

/-- A 7-bit bus address (spec/20_memory.md R34). -/
abbrev BusAddr := BitVec 7

end Sys2Proof
end

