-- ==== Sys2Proof/Config.lean ====
section
/-! DEFINITION. What is chosen when the core is instantiated and constant while it runs
(spec/00_scope.md R6, spec/10_state.md R27). -/

namespace Sys2Proof

/-- `INIT_POLICY` (spec/42_sequencer.md R97): whether `READ` sends `INIT` again. -/
inductive InitPolicy where
  /-- `INIT` is sent by `OPEN` only (the default). -/
  | onceAtOpen
  /-- `OPEN` sends `INIT` and every `READ` sends it again. -/
  | everyRead
  deriving DecidableEq, Repr

/-- The configuration record of spec/00_scope.md R6. Its legal range is `configLegal`. -/
structure Config where
  /-- `T_SETTLE_MS`, milliseconds. -/
  tSettleMs : Nat
  /-- `T_INIT_MS`, milliseconds. -/
  tInitMs : Nat
  /-- `INIT_POLICY`. -/
  policy : InitPolicy
  deriving DecidableEq, Repr

/-- The defaults of spec/00_scope.md R6. -/
def Config.default : Config := { tSettleMs := 100, tInitMs := 10, policy := .onceAtOpen }

/-- `F_CLK_HZ` (spec/00_scope.md R6, `OPEN`): no source gives it a value and no rule reads it; neither
does anything here (assumption log, entry 14). -/
opaque Config.fClkHz : Nat

end Sys2Proof
end

