-- ==== Sys2Proof/Syntax.lean ====
section
/-! DEFINITION. The operations: one constructor per row of spec/opcode_table.json, operands as decoded. -/

namespace Sys2Proof

/-- The operations of the block: the host requests of spec/30_encoding.md R59 (seven operations and the
two reserved rows of R64), then the three wire commands of R54. -/
inductive Instr where
  /-- `CRC.CLEAR` (spec/40_crc8.md R76). -/
  | crcClear
  /-- `CRC.UPDATE b` (spec/40_crc8.md R77). -/
  | crcUpdate (b : Byte)
  /-- `UNPACK d1, ..., d6` (spec/41_field_decoder.md R85). -/
  | unpack (d1 d2 d3 d4 d5 d6 : Byte)
  /-- `SCALE h, t` (spec/41_field_decoder.md R87). -/
  | scale (h t : Raw)
  /-- `OPEN` (spec/43_session.md R115). -/
  | openSession
  /-- `READ` (spec/42_sequencer.md R96). -/
  | readMeasurement
  /-- `CLOSE` (spec/43_session.md R117). -/
  | closeSession
  /-- `RESERVED.7`: opcode 0x7 (spec/30_encoding.md R64). -/
  | reserved7
  /-- `RESERVED.8_F`: the reserved opcode `op`, 0x8 to 0xF (spec/30_encoding.md R64). -/
  | reserved8F (op : BitVec 4)
  /-- Wire command `INIT` (spec/44_wire_commands.md R123). -/
  | init
  /-- Wire command `TRIG` (spec/44_wire_commands.md R124). -/
  | trig
  /-- Wire command `SRST` (spec/44_wire_commands.md R125). -/
  | srst
  deriving DecidableEq, Repr

end Sys2Proof
end

