-- ==== Sys2Proof/WellFormed.lean ====
section
/-! DEFINITION. Which terms of `Instr` are instructions of the hardware. -/

namespace Sys2Proof

/-- Every operand field has exactly the width of its encoding, so the one check left is the opcode of the
row `RESERVED.8_F`: its bit 3 is set (spec/opcode_table.json; spec/30_encoding.md R64, 0x8 to 0xF). -/
def Instr.wellFormed : Instr → Bool
  | .crcClear => true
  | .crcUpdate _ => true
  | .unpack _ _ _ _ _ _ => true
  | .scale _ _ => true
  | .openSession => true
  | .readMeasurement => true
  | .closeSession => true
  | .reserved7 => true
  | .reserved8F op => op.getLsbD 3
  | .init => true
  | .trig => true
  | .srst => true

end Sys2Proof
end

