-- ==== Sys2Proof/Decode.lean ====
section
/-! DEFINITION. Decoding and encoding (spec/30_encoding.md): the host request format `H52` and the wire
command formats `W3` and `W1`. -/

namespace Sys2Proof

/-- A host request as it stands at the port (spec/30_encoding.md R58). -/
structure Request where
  /-- `REQ_OP[3:0]`. -/
  op : BitVec 4
  /-- `REQ_ARG[47:0]`. -/
  arg : BitVec 48
  deriving DecidableEq, Repr

/-- An encoded operation: a 52-bit host request, or the bytes of a wire command in wire order. -/
inductive CodeWord where
  | request (r : Request)
  | wire (bytes : List Byte)
  deriving DecidableEq, Repr

/-- Why a code word is no operation. A request always is one, so both concern wire bytes. -/
inductive DecodeError where
  /-- A byte sequence of a length no wire command has (spec/30_encoding.md R66: 3 bytes or 1). -/
  | noSuchLength (n : Nat)
  /-- 3 or 1 bytes that are none of the three commands (spec/30_encoding.md R54). -/
  | notACommand (bytes : List Byte)
  deriving DecidableEq, Repr

/-- `hi ‖ lo`, concatenation in a word of `w` bits (spec/00_scope.md R9), zeros above. -/
def joinBits {m n : Nat} (w : Nat) (hi : BitVec m) (lo : BitVec n) : BitVec w :=
  (hi.setWidth w <<< n) ||| lo.setWidth w

/-- The request as one word: `REQ[51:48] = REQ_OP`, `REQ[47:0] = REQ_ARG` (R58). -/
def Request.word (r : Request) : BitVec 52 := joinBits 52 r.op r.arg

/-- The request a 52-bit word stands for (R58). -/
def Request.ofWord (w : BitVec 52) : Request :=
  { op := w.extractLsb' 48 4, arg := w.extractLsb' 0 48 }

/-! ## The command ROM (spec/10_state.md R28, spec/30_encoding.md R54) -/

/-- `CMD_INIT`. -/
def cmdInit : List Byte := [0xBE#8, 0x08#8, 0x00#8]

/-- `CMD_TRIG`. -/
def cmdTrig : List Byte := [0xAC#8, 0x33#8, 0x00#8]

/-- `CMD_SRST`. -/
def cmdSrst : List Byte := [0xBA#8]

/-! ## Decoding -/

/-- The operation map of spec/30_encoding.md R59, with the operand fields of R60, R61, R62 and the
reserved opcodes of R64. Total: every request is some operation. -/
def decodeRequest (r : Request) : Instr :=
  match r.op.toNat with
  | 0 => .crcClear
  | 1 => .crcUpdate (r.arg.extractLsb' 0 8)
  | 2 =>
    .unpack (r.arg.extractLsb' 40 8) (r.arg.extractLsb' 32 8) (r.arg.extractLsb' 24 8)
      (r.arg.extractLsb' 16 8) (r.arg.extractLsb' 8 8) (r.arg.extractLsb' 0 8)
  | 3 => .scale (r.arg.extractLsb' 20 20) (r.arg.extractLsb' 0 20)
  | 4 => .openSession
  | 5 => .readMeasurement
  | 6 => .closeSession
  | 7 => .reserved7
  | _ => .reserved8F r.op

/-- The wire command a byte sequence is (R54): the whole sequence is the command, no field varies. -/
def decodeWire (bytes : List Byte) : Except DecodeError Instr :=
  if bytes = cmdInit then .ok .init
  else if bytes = cmdTrig then .ok .trig
  else if bytes = cmdSrst then .ok .srst
  else if bytes.length = 3 ∨ bytes.length = 1 then .error (.notACommand bytes)
  else .error (.noSuchLength bytes.length)

/-- Decoding, total on every code word. -/
def decode : CodeWord → Except DecodeError Instr
  | .request r => .ok (decodeRequest r)
  | .wire bytes => decodeWire bytes

/-! ## Encoding -/

/-- The encoding of an operation, ignored argument bits zero (spec/30_encoding.md R54, R59, R67). -/
def encode : Instr → CodeWord
  | .crcClear => .request { op := 0#4, arg := 0#48 }
  | .crcUpdate b => .request { op := 1#4, arg := b.setWidth 48 }
  | .unpack d1 d2 d3 d4 d5 d6 =>
    .request { op := 2#4, arg := joinBits 48 (joinBits 24 (joinBits 16 d1 d2) d3) (joinBits 24 (joinBits 16 d4 d5) d6) }
  | .scale h t => .request { op := 3#4, arg := joinBits 48 h t }
  | .openSession => .request { op := 4#4, arg := 0#48 }
  | .readMeasurement => .request { op := 5#4, arg := 0#48 }
  | .closeSession => .request { op := 6#4, arg := 0#48 }
  | .reserved7 => .request { op := 7#4, arg := 0#48 }
  | .reserved8F op => .request { op := op, arg := 0#48 }
  | .init => .wire cmdInit
  | .trig => .wire cmdTrig
  | .srst => .wire cmdSrst

/-! ## Words as spec/opcode_table.json numbers them -/

/-- The code word whose bits are `w`, by the width of its format (spec/30_encoding.md R53, R54, R66): 52
bits (7 whole bytes) a request, 24 and 8 bits the bytes of a wire command, the first byte on the wire in
the most significant position. `none` for any other width and for a `w` that does not fit. -/
def codeWordOfBits (nbits w : Nat) : Option CodeWord :=
  if nbits = 52 ∨ nbits = 56 then
    if w < 2 ^ 52 then some (.request (Request.ofWord (BitVec.ofNat 52 w))) else none
  else if nbits = 24 then
    if w < 2 ^ 24 then
      some (.wire [BitVec.ofNat 8 (w / 2 ^ 16), BitVec.ofNat 8 (w / 2 ^ 8), BitVec.ofNat 8 w])
    else none
  else if nbits = 8 then
    if w < 2 ^ 8 then some (.wire [BitVec.ofNat 8 w]) else none
  else none

/-- The instruction this decoder reads from an instruction whose bits are `w`, numbered as the opcode
table numbers them; `none` where it refuses. -/
def decodeTableWord (nbits w : Nat) : Option Instr :=
  match codeWordOfBits nbits w with
  | none => none
  | some c => (decode c).toOption

end Sys2Proof
end

