-- ==== Sys2Proof/Machine/State.lean ====
section
/-! DEFINITION. The state of the core (spec/10_state.md R13), the inputs of the three other agents as
plain data, the state after reset (spec/70_reset_and_hazards.md R151), and the reasons a step can stop. -/

namespace Sys2Proof.Machine

/-- `SEQ_STATE`, the sequencer's position: exactly the eleven values of spec/10_state.md R17. -/
inductive SeqState where
  | idle
  | openSend
  | openWait
  | initSend
  | initWait
  | trigSend
  | settleWait
  | pollRecv
  | pollWait
  | validate
  | decode
  deriving DecidableEq, Repr

/-- The frame buffer `FRAME[0..6]`, and a frame received (spec/10_state.md R14, spec/30_encoding.md
R56): byte `i` is the `i`-th byte on the wire. The block has no other writable memory (spec/20_memory.md R37;
assumption log, entry 16). -/
structure Frame where
  b0 : Byte
  b1 : Byte
  b2 : Byte
  b3 : Byte
  b4 : Byte
  b5 : Byte
  b6 : Byte
  deriving DecidableEq, Repr

/-- The kinds of result of an operation (spec/60_exceptions.md R129). Their numbers are `resultCode`. -/
inductive ResultKind where
  | ok
  | transportError
  | sensorBusyError
  | integrityError
  | initError
  | refused
  deriving DecidableEq, Repr

/-- The answer of `BUS` to a send (spec/20_memory.md R39). -/
inductive SendAnswer where
  | ok
  | err
  deriving DecidableEq, Repr

/-- The answer of `BUS` to a receive of seven bytes (spec/20_memory.md R40): `short k` delivered `k < 7`. -/
inductive RecvAnswer where
  | ok (f : Frame)
  | short (k : Fin 7)
  | err
  deriving DecidableEq, Repr

/-- One line of the script of answers of `BUS` (spec/30_encoding.md R69): `bus ok`, `bus err`,
`bus ok [b0, ..., b6]`, `bus short k`. -/
inductive BusAnswer where
  | ok
  | err
  | okFrame (f : Frame)
  | short (k : Fin 7)
  deriving DecidableEq, Repr

/-- One move of the host (spec/70_reset_and_hazards.md R162, spec/30_encoding.md R58). The host takes at
most one before each step of the core. -/
inductive HostMove where
  /-- Present a request at the port; a port that still holds one must be free first. -/
  | present (r : Request)
  /-- Withdraw the request that waits at the port. -/
  | withdraw
  /-- Leave the core alone for one step. -/
  | pause
  /-- Apply the reset input. -/
  | reset
  deriving DecidableEq, Repr

/-- An externally visible event of the core (spec/95_test_vectors.md, notation of traces;
spec/60_exceptions.md R143 for `delay`). -/
inductive Event where
  | send (addr : BusAddr) (bytes : List Byte) (answer : SendAnswer)
  | recv (addr : BusAddr) (count : Nat) (answer : RecvAnswer)
  | delay (ms : Nat)
  deriving DecidableEq, Repr

/-- The whole machine: the eight registers of spec/10_state.md R13, the configuration (R27), and, as the
model's own fields, the inputs of `HOST` and `BUS` still to come and the record of the events so far. -/
structure State where
  /-- The configuration, constant while the core runs (R27). -/
  cfg : Config
  /-- `SESSION_OPEN`, 1 bit (R21). -/
  sessionOpen : Bool
  /-- `SEQ_STATE` (R17). -/
  seqState : SeqState
  /-- `ATTEMPT`, 4 bits (R18). -/
  attempt : BitVec 4
  /-- `FRAME[0..6]`, 7 x 8 bits (R14). -/
  frame : Frame
  /-- `CRC_ACC`, 8 bits (R15). -/
  crcAcc : Byte
  /-- `RSP_VALID`, 1 bit (R22). -/
  rspValid : Bool
  /-- `RSP_CODE`, 3 bits (R23). -/
  rspCode : BitVec 3
  /-- `RSP_DATA`, 40 bits (R24). -/
  rspData : BitVec 40
  /-- The request port: the request presented and not yet accepted or withdrawn (R26). -/
  port : Option Request
  /-- The moves the host is still to make, the next one first. -/
  host : List HostMove
  /-- The answers `BUS` is still to give, the next one first (spec/20_memory.md R41: free input). -/
  bus : List BusAnswer
  /-- The events so far, the oldest first. -/
  trace : List Event
  deriving DecidableEq, Repr

/-- The frame buffer after reset: `0x00` each (spec/70_reset_and_hazards.md R151). -/
def Frame.zero : Frame :=
  { b0 := 0#8, b1 := 0#8, b2 := 0#8, b3 := 0#8, b4 := 0#8, b5 := 0#8, b6 := 0#8 }

/-- The machine right after reset (R151), instantiated with the default configuration of
spec/00_scope.md R6. Nothing is presented, no answer is given, nothing has happened
(DESIGN CHOICE: assumption log, entries 1, 4, 5, 7). -/
def State.reset : State :=
  { cfg := Config.default
    sessionOpen := false
    seqState := .idle
    attempt := 0#4
    frame := Frame.zero
    crcAcc := 0xFF#8
    rspValid := false
    rspCode := 0#3
    rspData := 0#40
    port := none
    host := []
    bus := []
    trace := [] }

/-- Why the machine stops with a fault. -/
inductive Fault where
  /-- Raised by a send or a receive whose next script line is an answer of the other kind: bytes offered
  to a send, or an `ok` without bytes to a receive. spec/30_encoding.md R69 calls that "a malformed
  script, not a behaviour of the hardware". Safe: no run of the hardware is cut short. -/
  | malformedAnswer
  deriving DecidableEq, Repr

/-- Why a step has no meaning. -/
inductive Refusal where
  /-- Raised by an arm of `exec` whose instruction has no meaning yet; no arm does. Safe. -/
  | notModelled (mnemonic : String)
  /-- Raised by every step under a configuration outside the legal range: "A configuration outside the
  legal range is not a configuration of this hardware; a model refuses it" (spec/00_scope.md R6). Safe. -/
  | illegalConfiguration
  deriving DecidableEq, Repr

/-- The outcome of one step or one instruction. -/
abbrev Result := Host.Outcome State Fault Refusal

end Sys2Proof.Machine
end

