-- ==== Sys2Proof/Machine/Operands.lean ====
section
/-! DEFINITION. How the bytes of a frame are picked out (spec/20_memory.md R36) and how a result is laid
out in `RSP_DATA` (spec/10_state.md R24). The operand fields of requests are pulled out in Decode.lean. -/

namespace Sys2Proof.Machine

/-- `FRAME[i]` (spec/20_memory.md R36). -/
def frameByte (f : Frame) (i : Fin 7) : Byte :=
  match i with
  | 0 => f.b0
  | 1 => f.b1
  | 2 => f.b2
  | 3 => f.b3
  | 4 => f.b4
  | 5 => f.b5
  | 6 => f.b6

/-- `FRAME[0..5]`, the six bytes the CRC covers (spec/40_crc8.md R78). -/
def frameChecked (f : Frame) : List Byte := [f.b0, f.b1, f.b2, f.b3, f.b4, f.b5]

/-- The payload of `CRC.CLEAR` and `CRC.UPDATE`: `[7:0] = CRC_ACC` (R24). -/
def payloadCrc (b : Byte) : BitVec 40 := b.setWidth 40

/-- The payload of `UNPACK`: `[39:20] = hum_raw`, `[19:0] = temp_raw` (R24). -/
def payloadRaws (h t : Raw) : BitVec 40 := joinBits 40 h t

/-- The payload of `SCALE` and `READ`: `[23:16] = hum_pct`, `[15:0] = sext_16(temp_c)`, the other bits 0
(R24). The narrowing of the exact integers is here and nowhere else. -/
def payloadMeasurement (humPct : Nat) (tempC : Int) : BitVec 40 :=
  joinBits 40 (BitVec.ofNat 8 humPct) (BitVec.ofInt 16 tempC)

end Sys2Proof.Machine
end

