-- ==== Sys2Proof/Machine/Flags.lean ====
section
/-! DEFINITION. The condition flags: two bits of the status byte (spec/10_state.md R20,
spec/30_encoding.md R55). No operation computes an arithmetic flag. -/

namespace Sys2Proof.Machine

/-- BUSY, bit 7 of the status byte: the sensor is still converting (R20). -/
def statusBusy (st : Byte) : Bool := st.getLsbD 7

/-- CALIBRATED, bit 3 of the status byte. No rule reads it (R20), so nothing here does. -/
def statusCalibrated (st : Byte) : Bool := st.getLsbD 3

/-- The BUSY flag of a frame just received (spec/42_sequencer.md R103). -/
def frameBusy (f : Frame) : Bool := statusBusy (frameByte f 0)

end Sys2Proof.Machine
end

