-- ==== Sys2Proof/Machine/Ops.lean ====
section
/-! DEFINITION. The operations every meaning is made of: completion (spec/60_exceptions.md R134, R135),
acceptance of a request (spec/30_encoding.md R58), bus transactions (spec/20_memory.md R38 to R40),
delays (spec/60_exceptions.md R143), reset (spec/70_reset_and_hazards.md R151) and the host's moves. -/

namespace Sys2Proof.Machine

/-! ## Fixed parameters (spec/00_scope.md R6) -/

/-- `BUS_ADDR`. -/
def busAddr : BusAddr := 0x38#7

/-- `FRAME_LEN`. -/
def frameLen : Nat := 7

/-- `N_POLL`. -/
def nPoll : BitVec 4 := 10#4

/-- `T_POLL_MS`. -/
def tPollMs : Nat := 10

/-- The legal range of a configuration: `T_SETTLE_MS >= 75`, `T_INIT_MS >= 10` (R6). -/
def configLegal (c : Config) : Bool := decide (75 ≤ c.tSettleMs) && decide (10 ≤ c.tInitMs)

/-! ## Completion -/

/-- The number of a result kind, the value of `RSP_CODE` (spec/60_exceptions.md R129). -/
def resultCode : ResultKind → BitVec 3
  | .ok => 0#3
  | .transportError => 1#3
  | .sensorBusyError => 2#3
  | .integrityError => 3#3
  | .initError => 4#3
  | .refused => 7#3

/-- The operation in progress ends and its response is posted, in one step: what R134 and R135 share. -/
def respond (code : BitVec 3) (data : BitVec 40) (s : State) : State :=
  { s with rspCode := code, rspData := data, rspValid := true, seqState := .idle }

/-- `fail Kind` (R134), the trap entry of this block: the kind is posted, the payload is 0, nothing is
saved, the core is idle. -/
def failWith (kind : ResultKind) (s : State) : State := respond (resultCode kind) 0#40 s

/-- `done(data)` (R135), the success completion. What follows a completion, the "return" of this block
(R139), is the acceptance of the next request. -/
def doneWith (data : BitVec 40) (s : State) : State := respond (resultCode .ok) data s

/-! ## Acceptance -/

/-- Acceptance of a request (spec/30_encoding.md R58): only in `IDLE`, where `RSP_VALID` is cleared and
the operation starts; in any other state the request "is not accepted and has no effect". -/
def accept (start : State → State) (s : State) : Result :=
  match s.seqState with
  | .idle => .next (start { s with rspValid := false })
  | .openSend | .openWait | .initSend | .initWait | .trigSend | .settleWait | .pollRecv | .pollWait
  | .validate | .decode => .next s

/-! ## Bus and timer -/

/-- Record an externally visible event. -/
def record (e : Event) (s : State) : State := { s with trace := s.trace ++ [e] }

/-- `Delay(ms)` (spec/60_exceptions.md R143): the event is recorded, no clock is advanced, the delay
completes (assumption log, entry 6). -/
def delay (ms : Nat) (s : State) : State := record (.delay ms) s

/-- The script of `BUS` after the answer just given. -/
def answered (s : State) : State := { s with bus := s.bus.tail }

/-- `BusSend(0x38, bytes)` (spec/20_memory.md R39): request and answer are one step (R38), after which
`react` is what the core does with the answer. Without an answer the core stays where it is
(spec/60_exceptions.md R149; assumption log, entry 2). -/
def busSend (bytes : List Byte) (react : SendAnswer → State → State) (s : State) : Result :=
  match s.bus with
  | [] => .next s
  | .ok :: _ => .next (react .ok (record (.send busAddr bytes .ok) (answered s)))
  | .err :: _ => .next (react .err (record (.send busAddr bytes .err) (answered s)))
  | .okFrame _ :: _ => .fault .malformedAnswer
  | .short _ :: _ => .fault .malformedAnswer

/-- `BusRecv(0x38, 7)` (spec/20_memory.md R40), in the same manner. -/
def busRecv (react : RecvAnswer → State → State) (s : State) : Result :=
  match s.bus with
  | [] => .next s
  | .okFrame f :: _ => .next (react (.ok f) (record (.recv busAddr frameLen (.ok f)) (answered s)))
  | .short k :: _ => .next (react (.short k) (record (.recv busAddr frameLen (.short k)) (answered s)))
  | .err :: _ => .next (react .err (record (.recv busAddr frameLen .err) (answered s)))
  | .ok :: _ => .fault .malformedAnswer

/-! ## Outputs -/

/-- `BUSY_O`: `SEQ_STATE != IDLE` (spec/10_state.md R25). -/
def busyO (s : State) : Bool := decide (s.seqState ≠ .idle)

/-! ## The host's moves -/

/-- The reset input (spec/70_reset_and_hazards.md R151 to R153): every register takes its reset value,
the configuration keeps its own, no event happens, no response is posted. The host's further moves, the
port, the further answers of `BUS` and the record of the past are no registers and stay
(assumption log, entry 13). -/
def resetCore (s : State) : State :=
  { State.reset with cfg := s.cfg, port := s.port, host := s.host, bus := s.bus, trace := s.trace }

/-- Whether the host's next move is to apply the reset input. -/
def resetPending (s : State) : Bool :=
  match s.host with
  | .reset :: _ => true
  | _ => false

/-- The host's reset move is taken. -/
def applyReset (s : State) : State := resetCore { s with host := s.host.tail }

/-- The host's next move, where it is not the reset input (spec/30_encoding.md R58,
spec/70_reset_and_hazards.md R162; assumption log, entry 4): a request is presented when the port is
free, a waiting request is withdrawn, or the host lets the step pass. -/
def hostTurn (s : State) : State :=
  match s.host with
  | [] => s
  | .reset :: _ => s
  | .pause :: rest => { s with host := rest }
  | .withdraw :: rest => { s with port := none, host := rest }
  | .present r :: rest =>
    match s.port with
    | none => { s with port := some r, host := rest }
    | some _ => s

/-- The next state of an outcome, for tests and for statements about the states a step reaches. -/
def nextState : Result → Option State
  | .next s => some s
  | .fault _ => none
  | .refused _ => none

end Sys2Proof.Machine
end

