-- ==== Sys2Proof/Machine/Crc.lean ====
section
/-! DEFINITION. The CRC-8 checker (spec/40_crc8.md): the functions, `CRC.CLEAR` and `CRC.UPDATE`. -/

namespace Sys2Proof.Machine

/-- `CRC_INIT` (spec/00_scope.md R6). -/
def crcInit : Byte := 0xFF#8

/-- `CRC_POLY` (spec/00_scope.md R6). -/
def crcPoly : Byte := 0x31#8

/-- One shift step (spec/40_crc8.md R73): bit 7 is tested before the shift, the shift truncates to 8 bits. -/
def crc8Bit (acc : Byte) : Byte :=
  if acc.getLsbD 7 then (acc <<< 1) ^^^ crcPoly else acc <<< 1

/-- One input byte (R74): exclusive-or the whole byte in, then eight shift steps. -/
def crc8Byte (acc b : Byte) : Byte :=
  crc8Bit (crc8Bit (crc8Bit (crc8Bit (crc8Bit (crc8Bit (crc8Bit (crc8Bit (acc ^^^ b))))))))

/-- The CRC of a byte sequence (R75): from `0xFF`, the bytes in index order, no final exclusive-or. -/
def crc8 (bytes : List Byte) : Byte := bytes.foldl crc8Byte crcInit

/-- `crc_ok` (R78): the CRC of bytes 0 to 5 equals byte 6. -/
def crcOk (f : Frame) : Bool := decide (crc8 (frameChecked f) = frameByte f 6)

/-- Write `CRC_ACC` and complete with its new value as the payload (R76, R77). -/
def crcRespond (acc : Byte) (s : State) : State := doneWith (payloadCrc acc) { s with crcAcc := acc }

/-- `CRC.CLEAR` (R76). -/
def execCrcClear (s : State) : Result := accept (crcRespond crcInit) s

/-- `CRC.UPDATE b` (R77). -/
def execCrcUpdate (b : Byte) (s : State) : Result :=
  accept (fun a => crcRespond (crc8Byte a.crcAcc b) a) s

end Sys2Proof.Machine
end

