-- ==== Sys2Proof/Machine/FieldDecoder.lean ====
section
/-! DEFINITION. The field decoder (spec/41_field_decoder.md): the unpacker, the scaler, `UNPACK`, `SCALE`. -/

namespace Sys2Proof.Machine

/-- The unpacker (spec/41_field_decoder.md R83). The sixth byte is handed over and not read. -/
def unpackRaws (d1 d2 d3 d4 d5 _d6 : Byte) : Raw × Raw :=
  ((joinBits 24 (joinBits 16 d1 d2) d3 >>> 4).setWidth 20,
    joinBits 20 (joinBits 12 (d3.extractLsb' 0 4) d4) d5)

/-- The inverse layout (R84). No operation of the hardware: it is there for claims and tests. -/
def packRaws (h t : Raw) : Byte × Byte × Byte × Byte × Byte :=
  (h.extractLsb' 12 8, h.extractLsb' 4 8, joinBits 8 (h.extractLsb' 0 4) (t.extractLsb' 16 4),
    t.extractLsb' 8 8, t.extractLsb' 0 8)

/-- `hum_pct` (R86): multiply first, one truncating division, on exact integers. -/
def humPct (h : Raw) : Nat := h.toNat * 100 / 2 ^ 20

/-- `temp_c` (R86): the 50 is subtracted after the division. -/
def tempC (t : Raw) : Int := ((t.toNat * 200 / 2 ^ 20 : Nat) : Int) - 50

/-- `scale(h, t)` (R86). -/
def scaleRaws (h t : Raw) : Nat × Int := (humPct h, tempC t)

/-- The payload of a measurement: scale the raw values and lay the result out (R87). -/
def measurementOf (h t : Raw) : BitVec 40 := payloadMeasurement (scaleRaws h t).1 (scaleRaws h t).2

/-- `UNPACK d1, ..., d6` (R85). -/
def execUnpack (d1 d2 d3 d4 d5 d6 : Byte) (s : State) : Result :=
  accept (doneWith (payloadRaws (unpackRaws d1 d2 d3 d4 d5 d6).1 (unpackRaws d1 d2 d3 d4 d5 d6).2)) s

/-- `SCALE h, t` (R87). -/
def execScale (h t : Raw) (s : State) : Result := accept (doneWith (measurementOf h t)) s

end Sys2Proof.Machine
end

