-- ==== Sys2Proof/Machine/Reserved.lean ====
section
/-! DEFINITION. The reserved opcodes (spec/30_encoding.md R64): accepted, answered `Refused`. -/

namespace Sys2Proof.Machine

/-- `RESERVED.7` (R64, spec/60_exceptions.md R133). -/
def execReserved7 (s : State) : Result := accept (failWith .refused) s

/-- `RESERVED.8_F` (R64, spec/60_exceptions.md R133): the same for each of its opcodes. -/
def execReserved8F (_op : BitVec 4) (s : State) : Result := accept (failWith .refused) s

end Sys2Proof.Machine
end

