-- ==== Sys2Proof/Machine/Session.lean ====
section
/-! DEFINITION. The session boundary (spec/43_session.md): `OPEN`, `CLOSE`, and the steps of `OPEN`. -/

namespace Sys2Proof.Machine

/-- Acceptance of `OPEN` (R115): refused with a session open (R116), else the sequencer goes to
`OPEN_SEND`. -/
def openStart (s : State) : State :=
  if s.sessionOpen then failWith .refused s else { s with seqState := .openSend }

/-- What `OPEN_SEND` does with the answer to `INIT` (R115): the settle delay, or `InitError` at once. -/
def openReact (a : SendAnswer) (s : State) : State :=
  match a with
  | .ok => { s with seqState := .openWait }
  | .err => failWith .initError s

/-- `OPEN_WAIT` (R115): the settle delay, then the session is open and `OPEN` is done. -/
def openWaitStep (s : State) : Result :=
  .next (doneWith 0#40 { delay s.cfg.tInitMs s with sessionOpen := true })

/-- Acceptance of `CLOSE` (R117): refused without a session, else the session ends. -/
def closeStart (s : State) : State :=
  if s.sessionOpen then doneWith 0#40 { s with sessionOpen := false } else failWith .refused s

/-- `OPEN` (R115): the accepting step; the others follow by `SEQ_STATE`. -/
def execOpenSession (s : State) : Result := accept openStart s

/-- `CLOSE` (R117). -/
def execCloseSession (s : State) : Result := accept closeStart s

end Sys2Proof.Machine
end

