-- ==== Sys2Proof/Machine/Wire.lean ====
section
/-! DEFINITION. The wire commands (spec/44_wire_commands.md): each is one send transaction to `0x38`, and
what follows its answer belongs to the sequencer state that issues the command. -/

namespace Sys2Proof.Machine

/-- What `INIT_SEND` does with the answer to `INIT` (spec/42_sequencer.md R98). -/
def initReact (a : SendAnswer) (s : State) : State :=
  match a with
  | .ok => { s with seqState := .initWait }
  | .err => failWith .transportError s

/-- What `TRIG_SEND` does with the answer to `TRIG` (spec/42_sequencer.md R100). -/
def trigReact (a : SendAnswer) (s : State) : State :=
  match a with
  | .ok => { s with seqState := .settleWait }
  | .err => failWith .transportError s

/-- Who waits for the answer to `INIT` (spec/44_wire_commands.md R123). The states that do not issue it
have no rule for its answer, and `step` never sends it there (assumption log, entry 8). -/
def initAnswered (a : SendAnswer) (s : State) : State :=
  match s.seqState with
  | .openSend => openReact a s
  | .initSend => initReact a s
  | .idle | .openWait | .initWait | .trigSend | .settleWait | .pollRecv | .pollWait | .validate
  | .decode => s

/-- Who waits for the answer to `TRIG` (spec/44_wire_commands.md R124), in the same manner. -/
def trigAnswered (a : SendAnswer) (s : State) : State :=
  match s.seqState with
  | .trigSend => trigReact a s
  | .idle | .openSend | .openWait | .initSend | .initWait | .settleWait | .pollRecv | .pollWait
  | .validate | .decode => s

/-- `INIT` (R123). -/
def execInit (s : State) : Result := busSend cmdInit initAnswered s

/-- `TRIG` (R124). -/
def execTrig (s : State) : Result := busSend cmdTrig trigAnswered s

/-- `SRST` (R125): one send transaction of one byte. No state issues it, so no rule says what follows
its answer, and `step` never sends it (assumption log, entry 8). -/
def execSrst (s : State) : Result := busSend cmdSrst (fun _ a => a) s

end Sys2Proof.Machine
end

