-- ==== Sys2Proof/Machine/Sequencer.lean ====
section
/-! DEFINITION. The measurement sequencer (spec/42_sequencer.md): acceptance of `READ` and its steps. -/

namespace Sys2Proof.Machine

/-- Acceptance of `READ` (R96): refused without a session, else the first state by `INIT_POLICY`. -/
def readStart (s : State) : State :=
  if s.sessionOpen then
    match s.cfg.policy with
    | .everyRead => { s with seqState := .initSend }
    | .onceAtOpen => { s with seqState := .trigSend }
  else failWith .refused s

/-- `READ` (R96): the accepting step; the others follow by `SEQ_STATE` (R111). -/
def execReadMeasurement (s : State) : Result := accept readStart s

/-- `INIT_WAIT` (R99). -/
def initWaitStep (s : State) : Result := .next { delay s.cfg.tInitMs s with seqState := .trigSend }

/-- `SETTLE_WAIT` (R101). -/
def settleWaitStep (s : State) : Result :=
  .next { delay s.cfg.tSettleMs s with attempt := 1#4, seqState := .pollRecv }

/-- A whole frame was received (R102): it is stored, then its BUSY bit decides (R103). -/
def frameReceived (f : Frame) (s : State) : State :=
  { s with frame := f, seqState := if frameBusy f then .pollWait else .validate }

/-- What `POLL_RECV` does with the answer (R102): only a whole frame is stored. -/
def recvReact (a : RecvAnswer) (s : State) : State :=
  match a with
  | .ok f => frameReceived f s
  | .short _ => failWith .transportError s
  | .err => failWith .transportError s

/-- `POLL_RECV` (R102). -/
def pollRecvStep (s : State) : Result := busRecv recvReact s

/-- After the delay of `POLL_WAIT` (R104, R105): the comparison `ATTEMPT = 10` decides (R168;
assumption log, entry 10). -/
def nextAttempt (s : State) : State :=
  if s.attempt = nPoll then failWith .sensorBusyError s
  else { s with attempt := s.attempt + 1#4, seqState := .pollRecv }

/-- `POLL_WAIT` (R104): the delay follows every busy frame, the tenth included. -/
def pollWaitStep (s : State) : Result := .next (nextAttempt (delay tPollMs s))

/-- The comparison of `VALIDATE` (R106), on the accumulator just computed. -/
def crcCompared (s : State) : State :=
  if s.crcAcc = frameByte s.frame 6 then { s with seqState := .decode } else failWith .integrityError s

/-- `VALIDATE` (R106). -/
def validateStep (s : State) : Result := .next (crcCompared { s with crcAcc := crc8 (frameChecked s.frame) })

/-- The raw values of a frame (R107). -/
def frameRaws (f : Frame) : Raw × Raw :=
  unpackRaws (frameByte f 1) (frameByte f 2) (frameByte f 3) (frameByte f 4) (frameByte f 5) (frameByte f 6)

/-- The payload of the measurement a frame carries (R107). -/
def frameMeasurement (f : Frame) : BitVec 40 := measurementOf (frameRaws f).1 (frameRaws f).2

/-- `DECODE` (R107). -/
def decodeStep (s : State) : Result := .next (doneWith (frameMeasurement s.frame) s)

/-- The one step of the core in each state (spec/10_state.md R17, spec/42_sequencer.md R111,
spec/43_session.md R115), in `IDLE` without a request: none, it waits for one. -/
def seqStep (s : State) : Result :=
  match s.seqState with
  | .idle => .next s
  | .openSend => execInit s
  | .openWait => openWaitStep s
  | .initSend => execInit s
  | .initWait => initWaitStep s
  | .trigSend => execTrig s
  | .settleWait => settleWaitStep s
  | .pollRecv => pollRecvStep s
  | .pollWait => pollWaitStep s
  | .validate => validateStep s
  | .decode => decodeStep s

end Sys2Proof.Machine
end

