-- ==== Sys2Proof/Machine/Dispatch.lean ====
section
/-! DEFINITION. `exec`: one arm per constructor of `Instr`, each a call of that instruction's meaning. -/

namespace Sys2Proof.Machine

/-- The meaning of one instruction. -/
def exec (i : Instr) (s : State) : Host.Outcome State Fault Refusal :=
  match i with
  | .crcClear => Sys2Proof.Machine.execCrcClear s
  | .crcUpdate b => Sys2Proof.Machine.execCrcUpdate b s
  | .unpack d1 d2 d3 d4 d5 d6 => Sys2Proof.Machine.execUnpack d1 d2 d3 d4 d5 d6 s
  | .scale h t => Sys2Proof.Machine.execScale h t s
  | .openSession => Sys2Proof.Machine.execOpenSession s
  | .readMeasurement => Sys2Proof.Machine.execReadMeasurement s
  | .closeSession => Sys2Proof.Machine.execCloseSession s
  | .reserved7 => Sys2Proof.Machine.execReserved7 s
  | .reserved8F op => Sys2Proof.Machine.execReserved8F op s
  | .init => Sys2Proof.Machine.execInit s
  | .trig => Sys2Proof.Machine.execTrig s
  | .srst => Sys2Proof.Machine.execSrst s

end Sys2Proof.Machine
end

