-- ==== Sys2Proof/Machine/Fetch.lean ====
section
/-! DEFINITION. Which instruction the next step runs, and how one is placed so that it does. The core
fetches no program (spec/20_memory.md R35): in `IDLE` the host's request at the port is the next
instruction (spec/30_encoding.md R58), in a send state the command that state sends
(spec/10_state.md R17, spec/30_encoding.md R66). -/

namespace Sys2Proof.Machine

/-- The instruction the next step of the core runs, where it runs one. In `OPEN_WAIT`, `INIT_WAIT`,
`SETTLE_WAIT`, `POLL_RECV`, `POLL_WAIT`, `VALIDATE` and `DECODE` it runs none: it makes the step of the
operation in progress. -/
def fetch (s : State) : Option Instr :=
  match s.seqState with
  | .idle => s.port.map decodeRequest
  | .openSend => some .init
  | .initSend => some .init
  | .trigSend => some .trig
  | .openWait | .initWait | .settleWait | .pollRecv | .pollWait | .validate | .decode => none

/-- The request that is accepted leaves the port (spec/30_encoding.md R58); in any other state a request
there goes on waiting. -/
def takeFetched (s : State) : State :=
  match s.seqState with
  | .idle => { s with port := none }
  | .openSend | .openWait | .initSend | .initWait | .trigSend | .settleWait | .pollRecv | .pollWait
  | .validate | .decode => s

/-- The script with an answer to the next send: `bus ok` where the script has no line left. -/
def answerWaiting (bus : List BusAnswer) : List BusAnswer :=
  match bus with
  | [] => [.ok]
  | a :: rest => a :: rest

/-- The host presents the request `w` to an idle core, and makes no further move. -/
def placeRequest (w : Nat) (s : State) : State :=
  { s with seqState := .idle, port := some (Request.ofWord (BitVec.ofNat 52 w)), host := [] }

/-- The core stands in the state that sends a command, with an answer to it in the script and no move of
the host that could come before. -/
def placeCommand (q : SeqState) (s : State) : State :=
  { s with seqState := q, host := [], bus := answerWaiting s.bus }

/-- `s` with the instruction whose bits are `w` where the next step finds it (assumption log, entry 9).
`SRST` has no such place: spec/44_wire_commands.md R125, "no transition that uses it". -/
def placeWord (s : State) (nbits w : Nat) : State :=
  match decodeTableWord nbits w with
  | none => s
  | some .crcClear => placeRequest w s
  | some (.crcUpdate _) => placeRequest w s
  | some (.unpack _ _ _ _ _ _) => placeRequest w s
  | some (.scale _ _) => placeRequest w s
  | some .openSession => placeRequest w s
  | some .readMeasurement => placeRequest w s
  | some .closeSession => placeRequest w s
  | some .reserved7 => placeRequest w s
  | some (.reserved8F _) => placeRequest w s
  | some .init => placeCommand (if s.sessionOpen then .initSend else .openSend) s
  | some .trig => placeCommand .trigSend s
  | some .srst => s

end Sys2Proof.Machine
end

