-- ==== Sys2Proof/Machine/Step.lean ====
section
/-! DEFINITION. One step of the machine (spec/00_scope.md R7). -/

namespace Sys2Proof.Machine

/-- The core's own step: the instruction fetched, or the step of the operation in progress. -/
def coreStep (s : State) : Host.Outcome State Fault Refusal :=
  match fetch s with
  | some i => exec i (takeFetched s)
  | none => seqStep s

/-- One step: an illegal configuration is refused (spec/00_scope.md R6); the host makes its next move; if
that was the reset input the registers take their reset values (assumption log, entry 17), else the core
makes its step. -/
def step (s : State) : Host.Outcome State Fault Refusal :=
  match configLegal s.cfg with
  | false => .refused .illegalConfiguration
  | true =>
    match resetPending s with
    | true => .next (applyReset s)
    | false => coreStep (hostTurn s)

/-- `s` with the instruction whose bits are `w` where the next step fetches it. -/
def State.withFetchWord (s : State) (nbits w : Nat) : State := placeWord s nbits w

end Sys2Proof.Machine
end

