-- ==== Sys2Proof/Machine/Pseudocode.lean ====
section
/-! DEFINITION. `READ` as one piece (spec/42_sequencer.md R109), the big-step view. `step` does not use
it: "where the two seem to differ, the step rules govern". It is there for claims that the step rules
and the pseudocode agree (assumption log, entry 15). `none` means that the script of `BUS` runs out or is malformed on the way. -/

namespace Sys2Proof.Machine

/-- The part after the loop: CRC and compare, unpack and scale, done. -/
def pseudoCheck (s : State) : State :=
  let v := { s with crcAcc := crc8 (frameChecked s.frame) }
  if v.crcAcc = frameByte v.frame 6 then doneWith (frameMeasurement v.frame) v
  else failWith .integrityError v

/-- The polling loop, entered with `ATTEMPT` set; `fuel` bounds the number of receives. -/
def pseudoPoll : Nat → State → Option State
  | 0, _ => none
  | fuel + 1, s =>
    match s.bus with
    | .okFrame f :: _ =>
      let r := { record (.recv busAddr frameLen (.ok f)) (answered s) with frame := f }
      if frameBusy f then
        let d := delay tPollMs r
        if d.attempt = nPoll then some (failWith .sensorBusyError d)
        else pseudoPoll fuel { d with attempt := d.attempt + 1#4 }
      else some (pseudoCheck r)
    | .short k :: _ =>
      some (failWith .transportError (record (.recv busAddr frameLen (.short k)) (answered s)))
    | .err :: _ => some (failWith .transportError (record (.recv busAddr frameLen .err) (answered s)))
    | .ok :: _ => none
    | [] => none

/-- Trigger, settle, poll. -/
def pseudoTrigger (s : State) : Option State :=
  match s.bus with
  | .ok :: _ =>
    pseudoPoll nPoll.toNat
      { delay s.cfg.tSettleMs (record (.send busAddr cmdTrig .ok) (answered s)) with attempt := 1#4 }
  | .err :: _ => some (failWith .transportError (record (.send busAddr cmdTrig .err) (answered s)))
  | .okFrame _ :: _ => none
  | .short _ :: _ => none
  | [] => none

/-- The optional initialisation, then the rest. -/
def pseudoInit (s : State) : Option State :=
  match s.cfg.policy with
  | .onceAtOpen => pseudoTrigger s
  | .everyRead =>
    match s.bus with
    | .ok :: _ => pseudoTrigger (delay s.cfg.tInitMs (record (.send busAddr cmdInit .ok) (answered s)))
    | .err :: _ => some (failWith .transportError (record (.send busAddr cmdInit .err) (answered s)))
    | .okFrame _ :: _ => none
    | .short _ :: _ => none
    | [] => none

/-- `READ`, from the state in which it is accepted to its response (R109). -/
def readPseudocode (s : State) : Option State :=
  if s.sessionOpen then pseudoInit { s with rspValid := false } else some (failWith .refused s)

end Sys2Proof.Machine
end

