-- ==== Sys2Proof/Safety.lean ====
section
/-! DEFINITION. The terms claims are made in: runs, when a run is over, the invariants of the machine, and
the bound on what an operation still has to do. -/

namespace Sys2Proof.Machine

/-! ## Runs -/

/-- `n` steps, stopping at the first fault or refusal. -/
def runSteps : Nat → State → Result
  | 0, s => .next s
  | n + 1, s =>
    match step s with
    | .next t => runSteps n t
    | .fault r => .fault r
    | .refused r => .refused r

/-- Instructions one after the other, where each answers a next state. -/
def execAll : List Instr → State → Option State
  | [], s => some s
  | i :: rest, s =>
    match nextState (exec i s) with
    | some t => execAll rest t
    | none => none

/-- Whether a host move presents a request. -/
def presents : HostMove → Bool
  | .present _ => true
  | .withdraw => false
  | .pause => false
  | .reset => false

/-! ## The payload of a measurement, by numbers -/

/-- `zext_8(p) ‖ sext_16(c)` (spec/41_field_decoder.md R87) as the number it is, with `sext_16(c)` the
value `c mod 2^16` (spec/00_scope.md R9). -/
def measurementWord (p : Nat) (c : Int) : BitVec 40 := BitVec.ofInt 40 ((p : Int) * 2 ^ 16 + c % 2 ^ 16)

/-- The measurement the data bytes of a frame hold (spec/42_sequencer.md R107), as that number. -/
def frameWord (f : Frame) : BitVec 40 :=
  measurementWord (scaleRaws (unpackRaws f.b1 f.b2 f.b3 f.b4 f.b5 f.b6).1
      (unpackRaws f.b1 f.b2 f.b3 f.b4 f.b5 f.b6).2).1
    (scaleRaws (unpackRaws f.b1 f.b2 f.b3 f.b4 f.b5 f.b6).1
      (unpackRaws f.b1 f.b2 f.b3 f.b4 f.b5 f.b6).2).2

/-! ## Groups of sequencer states -/

/-- The states of an `OPEN` in progress (spec/43_session.md R115). -/
def opening : SeqState → Bool
  | .openSend | .openWait => true
  | .idle | .initSend | .initWait | .trigSend | .settleWait | .pollRecv | .pollWait | .validate
  | .decode => false

/-- The states of a `READ` in progress (spec/42_sequencer.md R111). -/
def reading : SeqState → Bool
  | .initSend | .initWait | .trigSend | .settleWait | .pollRecv | .pollWait | .validate | .decode => true
  | .idle | .openSend | .openWait => false

/-- The two states in which `ATTEMPT` is live (spec/10_state.md R18). -/
def polling : SeqState → Bool
  | .pollRecv | .pollWait => true
  | .idle | .openSend | .openWait | .initSend | .initWait | .trigSend | .settleWait | .validate
  | .decode => false

/-- The states whose step is a bus transaction (spec/10_state.md R17). -/
def transacting : SeqState → Bool
  | .openSend | .initSend | .trigSend | .pollRecv => true
  | .idle | .openWait | .initWait | .settleWait | .pollWait | .validate | .decode => false

/-- Whether an answer is one that the transaction of a state can get (spec/30_encoding.md R69). -/
def answerFits (q : SeqState) (a : BusAnswer) : Bool :=
  match q, a with
  | .pollRecv, .ok => false
  | .openSend, .okFrame _ => false
  | .initSend, .okFrame _ => false
  | .trigSend, .okFrame _ => false
  | .openSend, .short _ => false
  | .initSend, .short _ => false
  | .trigSend, .short _ => false
  | _, _ => true

/-! ## The end of a run (spec/70_reset_and_hazards.md R165) -/

/-- A run is over when every request has been accepted and answered and `SEQ_STATE = IDLE` (R165): the core
is idle, none waits at the port, none is still to be presented. DESIGN CHOICE (assumption log, entry 18),
since R165 speaks of lists of requests only: a request that the host withdrew, or whose operation a reset
abandoned, no longer counts, and a reset, a withdrawal or a pause still to come does not keep a run from
being over. -/
def runOver (s : State) : Bool :=
  !busyO s && s.port.isNone && s.host.all (fun m => !presents m)

/-- The run is over with answers of the script left over: a malformed test (R165). -/
def answersLeftOver (s : State) : Bool := runOver s && !s.bus.isEmpty

/-- The core waits for an answer and the script has none: a malformed test (R165). DESIGN CHOICE
(assumption log, entry 18): whatever moves the host still has, a reset among them. -/
def answersRunOut (s : State) : Bool := transacting s.seqState && s.bus.isEmpty

/-- "A malformed test, not a behaviour of the hardware" (R165). -/
def testMalformed (s : State) : Bool := answersLeftOver s || answersRunOut s

/-- The run is over and has used up its script: the end of a test that is not malformed. -/
def testComplete (s : State) : Bool := runOver s && s.bus.isEmpty

/-- What a run ends in (R165): the registers of spec/10_state.md R13 and the trace of events. -/
structure EndState where
  sessionOpen : Bool
  seqState : SeqState
  attempt : BitVec 4
  frame : Frame
  crcAcc : Byte
  rspValid : Bool
  rspCode : BitVec 3
  rspData : BitVec 40
  trace : List Event
  deriving DecidableEq, Repr

/-- The end state of a run that is over, `none` of one that is not. -/
def endState (s : State) : Option EndState :=
  if runOver s then
    some { sessionOpen := s.sessionOpen, seqState := s.seqState, attempt := s.attempt, frame := s.frame,
           crcAcc := s.crcAcc, rspValid := s.rspValid, rspCode := s.rspCode, rspData := s.rspData,
           trace := s.trace }
  else none

/-! ## The invariant -/

/-- `ATTEMPT` never exceeds 10 and is at least 1 while it is live (spec/10_state.md R18). -/
abbrev AttemptInv (s : State) : Prop :=
  s.attempt.toNat ≤ 10 ∧ (polling s.seqState = true → 1 ≤ s.attempt.toNat)

/-- The response registers: only the codes of spec/60_exceptions.md R129, a zero payload on failure
(spec/10_state.md R24), no response while an operation is in progress (R22). -/
abbrev ResponseInv (s : State) : Prop :=
  s.rspCode ∈ [0#3, 1#3, 2#3, 3#3, 4#3, 7#3] ∧ (s.rspCode ≠ 0#3 → s.rspData = 0#40) ∧
    (s.seqState ≠ .idle → s.rspValid = false)

/-- A session is open throughout a `READ` and not yet open throughout an `OPEN` (spec/10_state.md R21). -/
abbrev SessionInv (s : State) : Prop :=
  (opening s.seqState = true → s.sessionOpen = false) ∧ (reading s.seqState = true → s.sessionOpen = true)

/-- The initialising states occur under `EVERY_READ` only (spec/42_sequencer.md R98, R99). -/
abbrev PolicyInv (s : State) : Prop :=
  s.seqState = .initSend ∨ s.seqState = .initWait → s.cfg.policy = .everyRead

/-- The states between a receive and the end of the attempt it belongs to. -/
def received : SeqState → Bool
  | .pollWait | .validate | .decode => true
  | .idle | .openSend | .openWait | .initSend | .initWait | .trigSend | .settleWait | .pollRecv => false

/-- What is known of the frame in the states after a receive (spec/42_sequencer.md R102, R103, R106): it is
the one the newest event received whole, busy in `POLL_WAIT`, not busy afterwards, and in `DECODE` its CRC
is right and stands in `CRC_ACC`. -/
abbrev FrameInv (s : State) : Prop :=
  (received s.seqState = true → s.trace.getLast? = some (.recv 0x38#7 7 (.ok s.frame))) ∧
    (s.seqState = .pollWait → frameBusy s.frame = true) ∧
    (s.seqState = .validate ∨ s.seqState = .decode → frameBusy s.frame = false) ∧
    (s.seqState = .decode → crcOk s.frame = true ∧ s.crcAcc = frameByte s.frame 6)

/-- An event the core can cause (spec/20_memory.md R34, R46, spec/60_exceptions.md R143): address `0x38`,
the two commands `INIT` and `TRIG` and never `SRST`, receives of seven bytes, the three delays. -/
def eventLegal (c : Config) : Event → Bool
  | .send a bytes _ =>
    decide (a = 0x38#7) &&
      (decide (bytes = [0xBE#8, 0x08#8, 0x00#8]) || decide (bytes = [0xAC#8, 0x33#8, 0x00#8]))
  | .recv a n _ => decide (a = 0x38#7) && decide (n = 7)
  | .delay ms => decide (ms = c.tInitMs) || decide (ms = c.tSettleMs) || decide (ms = 10)

/-- Every event so far is one the core can cause. -/
abbrev TraceInv (s : State) : Prop := ∀ e ∈ s.trace, eventLegal s.cfg e = true

/-- The invariant of the machine: what every step keeps and `State.reset` has. -/
abbrev MachineInv (s : State) : Prop :=
  configLegal s.cfg = true ∧ AttemptInv s ∧ ResponseInv s ∧ SessionInv s ∧ PolicyInv s ∧ FrameInv s ∧
    TraceInv s

/-! ## Spacing of transactions (spec/70_reset_and_hazards.md R155, R157), newest event first -/

/-- A receive may come next: the last event is a delay, of at least 75 ms after a `TRIG` that was
delivered, of at least 10 ms after another receive. -/
def recvReady : List Event → Bool
  | .delay d :: .send _ bytes .ok :: _ => decide (bytes = [0xAC#8, 0x33#8, 0x00#8]) && decide (75 ≤ d)
  | .delay d :: .recv _ _ _ :: _ => decide (10 ≤ d)
  | _ => false

/-- Every receive came when it might. -/
def recvSpaced : List Event → Bool
  | [] => true
  | .recv _ _ _ :: rest => recvReady rest && recvSpaced rest
  | .send _ _ _ :: rest => recvSpaced rest
  | .delay _ :: rest => recvSpaced rest

/-- The last event is a `TRIG` that was delivered. -/
def afterTrigger : List Event → Bool
  | .send _ bytes .ok :: _ => decide (bytes = [0xAC#8, 0x33#8, 0x00#8])
  | _ => false

/-- The last event is a receive. -/
def afterReceive : List Event → Bool
  | .recv _ _ _ :: _ => true
  | _ => false

/-- The spacing invariant: the past is spaced, and the state is one the last event leads to. -/
abbrev SpacingInv (s : State) : Prop :=
  recvSpaced s.trace.reverse = true ∧
    (s.seqState = .settleWait → afterTrigger s.trace.reverse = true) ∧
    (s.seqState = .pollRecv → recvReady s.trace.reverse = true) ∧
    (s.seqState = .pollWait → afterReceive s.trace.reverse = true)

/-! ## Two runs compared -/

/-- Two outcomes that no agent outside the core can tell apart: position, session, events and answers
taken agree, and so does the response where there is one (spec/43_session.md R118). -/
def alikeOutside (x y : Result) : Prop :=
  match x, y with
  | .next a, .next b =>
    a.seqState = b.seqState ∧ a.sessionOpen = b.sessionOpen ∧ a.bus = b.bus ∧ a.trace = b.trace ∧
      a.rspValid = b.rspValid ∧ (a.rspValid = true → a.rspCode = b.rspCode ∧ a.rspData = b.rspData)
  | .fault r, .fault q => r = q
  | .refused r, .refused q => r = q
  | .next _, .fault _ => False
  | .next _, .refused _ => False
  | .fault _, .next _ => False
  | .fault _, .refused _ => False
  | .refused _, .next _ => False
  | .refused _, .fault _ => False

/-! ## Termination -/

/-- A bound on the answered steps an operation in progress still has to make (spec/42_sequencer.md R112). -/
def remaining (s : State) : Nat :=
  match s.seqState with
  | .idle => 0
  | .openWait => 1
  | .openSend => 2
  | .decode => 1
  | .validate => 2
  | .pollWait => 2 * (10 - s.attempt.toNat) + 3
  | .pollRecv => 2 * (10 - s.attempt.toNat) + 4
  | .settleWait => 23
  | .trigSend => 24
  | .initWait => 25
  | .initSend => 26

end Sys2Proof.Machine
end

