-- ==== Sys2Proof/Certificates/Slice0/Obligations.lean ====
section
/-! DEFINITION. The statements for the provers, from the numbered rules of spec/. Numbers of the spec
(addresses, codes, bytes, times) are written out here and not taken from the model's constants. -/

open Sys2Proof Sys2Proof.Machine
open Host (Outcome)

/-! ## Reset -/

/-- R151, R152: whatever the core is doing, the reset input gives every register its reset value, keeps
the configuration and causes no bus transaction and no delay. That the port, the answers still to come and
the host's further moves stay (assumption log, entry 13), and that the reset takes the place of the core's
step (entry 17), are the model's choices. -/
def Obligations.ResetInputGivesResetValues : Prop :=
  ∀ (s : State) (rest : List HostMove), configLegal s.cfg = true → s.host = .reset :: rest →
    ∃ t, step s = Outcome.next t ∧
      t.sessionOpen = false ∧ t.seqState = .idle ∧ t.attempt = 0#4 ∧
      t.frame = { b0 := 0#8, b1 := 0#8, b2 := 0#8, b3 := 0#8, b4 := 0#8, b5 := 0#8, b6 := 0#8 } ∧
      t.crcAcc = 0xFF#8 ∧ t.rspValid = false ∧ t.rspCode = 0#3 ∧ t.rspData = 0#40 ∧ busyO t = false ∧
      t.cfg = s.cfg ∧ t.trace = s.trace ∧ t.port = s.port ∧ t.bus = s.bus ∧ t.host = rest ∧
      cmdInit = [0xBE#8, 0x08#8, 0x00#8] ∧ cmdTrig = [0xAC#8, 0x33#8, 0x00#8] ∧ cmdSrst = [0xBA#8]

/-- The state `State.reset` itself: the register values of R151, and the model's choices (assumption log,
entries 1, 4, 5, 7): the default configuration, nothing presented, no answer, no event. -/
def Obligations.StateResetIsTheResetTable : Prop :=
  State.reset.sessionOpen = false ∧ State.reset.seqState = .idle ∧ State.reset.attempt = 0#4 ∧
  (∀ i, frameByte State.reset.frame i = 0#8) ∧ State.reset.crcAcc = 0xFF#8 ∧
  State.reset.rspValid = false ∧ State.reset.rspCode = 0#3 ∧ State.reset.rspData = 0#40 ∧
  busyO State.reset = false ∧
  State.reset.cfg = { tSettleMs := 100, tInitMs := 10, policy := .onceAtOpen } ∧
  State.reset.port = none ∧ State.reset.host = [] ∧ State.reset.bus = [] ∧ State.reset.trace = [] ∧
  runOver State.reset = true

/-- The invariants that every step keeps hold at `State.reset`: with the register values of R151, and with
the default configuration and the empty trace that are the model's choices there (assumption log, entries 5
and 7). -/
def Obligations.InvariantsHoldAtReset : Prop := MachineInv State.reset ∧ SpacingInv State.reset

/-! ## Encoding -/

/-- R58: `REQ[51:48] = REQ_OP`, `REQ[47:0] = REQ_ARG`, in both directions. -/
def Obligations.RequestWordLayout : Prop :=
  (∀ w : BitVec 52, (Request.ofWord w).op.toNat = w.toNat / 2 ^ 48 ∧
    (Request.ofWord w).arg.toNat = w.toNat % 2 ^ 48 ∧ (Request.ofWord w).word = w) ∧
  (∀ r : Request, r.word.toNat = r.op.toNat * 2 ^ 48 + r.arg.toNat ∧ Request.ofWord r.word = r)

/-- R59, with the operand fields of R60 and R61 by their numbers: the operation of every request, for
every value of its argument. -/
def Obligations.OpcodeSelectsOperation : Prop :=
  ∀ arg : BitVec 48,
    decodeRequest ⟨0x0#4, arg⟩ = .crcClear ∧
    decodeRequest ⟨0x1#4, arg⟩ = .crcUpdate (BitVec.ofNat 8 arg.toNat) ∧
    decodeRequest ⟨0x2#4, arg⟩ =
      .unpack (BitVec.ofNat 8 (arg.toNat / 2 ^ 40)) (BitVec.ofNat 8 (arg.toNat / 2 ^ 32))
        (BitVec.ofNat 8 (arg.toNat / 2 ^ 24)) (BitVec.ofNat 8 (arg.toNat / 2 ^ 16))
        (BitVec.ofNat 8 (arg.toNat / 2 ^ 8)) (BitVec.ofNat 8 arg.toNat) ∧
    decodeRequest ⟨0x3#4, arg⟩ = .scale (BitVec.ofNat 20 (arg.toNat / 2 ^ 20)) (BitVec.ofNat 20 arg.toNat) ∧
    decodeRequest ⟨0x4#4, arg⟩ = .openSession ∧
    decodeRequest ⟨0x5#4, arg⟩ = .readMeasurement ∧
    decodeRequest ⟨0x6#4, arg⟩ = .closeSession ∧
    decodeRequest ⟨0x7#4, arg⟩ = .reserved7 ∧
    (∀ op : BitVec 4, 8 ≤ op.toNat → decodeRequest ⟨op, arg⟩ = .reserved8F op)

/-- Every instruction that decoding answers is well formed. -/
def Obligations.DecodedInstructionIsWellFormed : Prop :=
  ∀ (c : CodeWord) (i : Instr), decode c = .ok i → i.wellFormed = true

/-- R54: the three commands, as bytes and as words, and no other byte sequence is a command. -/
def Obligations.ExactlyThreeWireCommands : Prop :=
  (∀ (bytes : List Byte) (i : Instr), decode (.wire bytes) = .ok i ↔
    (bytes = [0xBE#8, 0x08#8, 0x00#8] ∧ i = .init) ∨ (bytes = [0xAC#8, 0x33#8, 0x00#8] ∧ i = .trig) ∨
      (bytes = [0xBA#8] ∧ i = .srst)) ∧
  encode .init = .wire [0xBE#8, 0x08#8, 0x00#8] ∧ encode .trig = .wire [0xAC#8, 0x33#8, 0x00#8] ∧
  encode .srst = .wire [0xBA#8] ∧
  (∀ (w : Nat) (i : Instr), decodeTableWord 24 w = some i ↔
    (w = 0xBE0800 ∧ i = .init) ∨ (w = 0xAC3300 ∧ i = .trig)) ∧
  (∀ (w : Nat) (i : Instr), decodeTableWord 8 w = some i ↔ w = 0xBA ∧ i = .srst)

/-- Decoding the encoding of a well-formed instruction, every operand at every value, gives it back. -/
def Obligations.DecodeOfEncodeIsIdentity : Prop :=
  ∀ i : Instr, i.wellFormed = true → decode (encode i) = .ok i

/-- A few words of R67 and R54 decode to what they stand for. -/
def Obligations.SpecWordsDecodeRight : Prop :=
  decodeTableWord 52 0x5000000000000 = some .readMeasurement ∧
  decodeTableWord 52 0x10000000000BE = some (.crcUpdate 0xBE#8) ∧
  decodeTableWord 52 0x2199A2C666639 =
    some (.unpack 0x19#8 0x9A#8 0x2C#8 0x66#8 0x66#8 0x39#8) ∧
  decodeTableWord 52 0x300199A2C6666 = some (.scale 104866#20 812646#20) ∧
  decodeTableWord 24 0xBE0800 = some .init ∧ decodeTableWord 24 0xAC3300 = some .trig ∧
  decodeTableWord 8 0xBA = some .srst

/-! ## The step -/

/-- The instruction fetched is the one a step runs: an idle core runs what the request at the port
decodes to, and takes it from the port; a send state runs the command it sends. Around it a step takes the
host's next move (`hostTurn`; the model's choice, assumption log, entry 4), and only in a legal
configuration with no reset move pending. -/
def Obligations.StepRunsTheDecodedInstruction : Prop :=
  ∀ s : State, configLegal s.cfg = true → resetPending s = false →
    (∀ (r : Request) (i : Instr), (hostTurn s).seqState = .idle → (hostTurn s).port = some r →
      decode (.request r) = .ok i → step s = exec i { hostTurn s with port := none }) ∧
    ((hostTurn s).seqState = .openSend ∨ (hostTurn s).seqState = .initSend →
      step s = exec .init (hostTurn s)) ∧
    ((hostTurn s).seqState = .trigSend → step s = exec .trig (hostTurn s))

/-- In every other case a step is the one step of the operation in progress, or nothing in an idle core
with an empty port, after the host's move (`hostTurn`; the model's choice, assumption log, entry 4). -/
def Obligations.StepMakesTheOperationsStep : Prop :=
  ∀ s : State, configLegal s.cfg = true → resetPending s = false → fetch (hostTurn s) = none →
    step s = seqStep (hostTurn s) ∧
    ((hostTurn s).seqState = .idle → (hostTurn s).port = none ∧ step s = Outcome.next (hostTurn s))

/-- A configuration outside the legal range of R6 is refused, whatever the state. -/
def Obligations.IllegalConfigurationIsRefused : Prop :=
  ∀ s : State, s.cfg.tSettleMs < 75 ∨ s.cfg.tInitMs < 10 →
    step s = Outcome.refused Refusal.illegalConfiguration

/-- In a legal configuration a step has no outcome but a next state, except that a script whose next line
is no answer to the transaction at hand (R69) is a fault. The model's own in this (assumption log): that a
`short` is no answer to a send (entry 3), that a transaction without an answer is a next state (entry 2),
and that a pending reset comes before the script is read (entry 17). -/
def Obligations.StepStopsOnlyOnMalformedScript : Prop :=
  ∀ s : State, configLegal s.cfg = true →
    ((∃ t, step s = Outcome.next t) ∨ step s = Outcome.fault Fault.malformedAnswer) ∧
    (step s = Outcome.fault Fault.malformedAnswer ↔
      resetPending s = false ∧ transacting s.seqState = true ∧
        ∃ a rest, s.bus = a :: rest ∧ answerFits s.seqState a = false)

/-- R58: a request presented while the core is busy has no effect and waits at the port: with it or
without it the step has the same outcome, but for the port. -/
def Obligations.BusyCoreLeavesRequestWaiting : Prop :=
  ∀ (s t : State) (r : Request), s.seqState ≠ .idle → s.host = [] → s.port = some r →
    step s = Outcome.next t →
      t.port = some r ∧ step { s with port := none } = Outcome.next { t with port := none }

/-- R58: as instructions, requests have no effect on a core that is not idle. -/
def Obligations.HostRequestNotAcceptedWhileBusy : Prop :=
  ∀ (r : Request) (s : State), s.seqState ≠ .idle → exec (decodeRequest r) s = Outcome.next s

/-- R149: a transaction that is never answered leaves the core where it is for ever, `BUSY_O = 1`, and is
never reported as an error. That the waiting is a step without effect is the model's (assumption log,
entry 2). -/
def Obligations.UnansweredTransactionNeverEnds : Prop :=
  ∀ (s : State) (n : Nat), configLegal s.cfg = true → transacting s.seqState = true → s.bus = [] →
    s.host = [] → runSteps n s = Outcome.next s ∧ busyO s = true

/-- R50, R38: a step of the core causes at most one event and rewrites nothing of the past. A delay is that
of the state it was requested in and takes no answer; a send or a receive is that of the state that makes
it, and is recorded with the answer it took from the script. -/
def Obligations.OneEventPerStep : Prop :=
  ∀ s t : State, step s = Outcome.next t →
    (t.trace = s.trace ∧ t.bus = s.bus) ∨
    (∃ ms, t.trace = s.trace ++ [Event.delay ms] ∧ t.bus = s.bus ∧
      (((s.seqState = .openWait ∨ s.seqState = .initWait) ∧ ms = s.cfg.tInitMs) ∨
        (s.seqState = .settleWait ∧ ms = s.cfg.tSettleMs) ∨ (s.seqState = .pollWait ∧ ms = 10))) ∨
    (∃ bytes ans, t.trace = s.trace ++ [Event.send 0x38#7 bytes ans] ∧
      (((s.seqState = .openSend ∨ s.seqState = .initSend) ∧ bytes = [0xBE#8, 0x08#8, 0x00#8]) ∨
        (s.seqState = .trigSend ∧ bytes = [0xAC#8, 0x33#8, 0x00#8])) ∧
      ((ans = .ok ∧ s.bus = .ok :: t.bus) ∨ (ans = .err ∧ s.bus = .err :: t.bus))) ∨
    (∃ ans, t.trace = s.trace ++ [Event.recv 0x38#7 7 ans] ∧ s.seqState = .pollRecv ∧
      ((∃ f, ans = .ok f ∧ s.bus = .okFrame f :: t.bus) ∨
        (∃ k, ans = .short k ∧ s.bus = .short k :: t.bus) ∨ (ans = .err ∧ s.bus = .err :: t.bus)))

/-! ## Completion -/

/-- R134, R135: `fail Kind` posts the kind's number of R129 with a zero payload, `done(data)` posts code 0
with the data; both set `RSP_VALID`, return to `IDLE` and keep every other register. -/
def Obligations.CompletionPostsTheResponse : Prop :=
  ∀ s : State,
    failWith .transportError s =
      { s with rspCode := 1#3, rspData := 0#40, rspValid := true, seqState := .idle } ∧
    failWith .sensorBusyError s =
      { s with rspCode := 2#3, rspData := 0#40, rspValid := true, seqState := .idle } ∧
    failWith .integrityError s =
      { s with rspCode := 3#3, rspData := 0#40, rspValid := true, seqState := .idle } ∧
    failWith .initError s =
      { s with rspCode := 4#3, rspData := 0#40, rspValid := true, seqState := .idle } ∧
    failWith .refused s =
      { s with rspCode := 7#3, rspData := 0#40, rspValid := true, seqState := .idle } ∧
    (∀ data, doneWith data s =
      { s with rspCode := 0#3, rspData := data, rspValid := true, seqState := .idle })

/-- R133, R64: the four requests refused, the reserved ones with every opcode and argument, and nothing
but the response happens. -/
def Obligations.RefusedRequestsOnlyRespond : Prop :=
  ∀ s : State, s.seqState = .idle →
    (s.sessionOpen = false → exec .readMeasurement s =
      Outcome.next { s with rspValid := true, rspCode := 7#3, rspData := 0#40 }) ∧
    (s.sessionOpen = false → exec .closeSession s =
      Outcome.next { s with rspValid := true, rspCode := 7#3, rspData := 0#40 }) ∧
    (s.sessionOpen = true → exec .openSession s =
      Outcome.next { s with rspValid := true, rspCode := 7#3, rspData := 0#40 }) ∧
    (exec .reserved7 s = Outcome.next { s with rspValid := true, rspCode := 7#3, rspData := 0#40 }) ∧
    (∀ op : BitVec 4, exec (.reserved8F op) s =
      Outcome.next { s with rspValid := true, rspCode := 7#3, rspData := 0#40 }) ∧
    (∀ r : Request, 7 ≤ r.op.toNat → exec (decodeRequest r) s =
      Outcome.next { s with rspValid := true, rspCode := 7#3, rspData := 0#40 })

/-! ## CRC-8 -/

/-- R76: opcode 0x0 with any argument, with or without a session. -/
def Obligations.CrcClearResult : Prop :=
  (∀ arg : BitVec 48, decodeRequest ⟨0x0#4, arg⟩ = .crcClear) ∧
  ∀ s : State, s.seqState = .idle →
    exec .crcClear s = Outcome.next
      { s with crcAcc := 0xFF#8, rspValid := true, rspCode := 0#3, rspData := 0xFF#40 }

/-- The effect of `CRC.UPDATE` in R77: the new accumulator is stored and answered, whatever it held; a
byte equal to the accumulator gives 0. -/
def Obligations.CrcUpdateResult : Prop :=
  ∀ (s : State) (b : Byte), s.seqState = .idle →
    exec (.crcUpdate b) s = Outcome.next
      { s with crcAcc := crc8Byte s.crcAcc b, rspValid := true, rspCode := 0#3,
               rspData := BitVec.ofNat 40 (crc8Byte s.crcAcc b).toNat } ∧
    crc8Byte b b = 0#8

/-- R73, on integers: the top bit decides, the doubled value is cut to 8 bits, the polynomial is added by
exclusive-or; R74: a byte is folded in by eight such steps on the exclusive-or; R75: a sequence from `0xFF`,
byte by byte in index order. -/
def Obligations.CrcDefinitions : Prop :=
  (∀ acc : Byte, (crc8Bit acc).toNat =
    if 128 ≤ acc.toNat then ((acc.toNat * 2) % 256) ^^^ 0x31 else (acc.toNat * 2) % 256) ∧
  (∀ acc b : Byte, crc8Byte acc b = Nat.repeat crc8Bit 8 (acc ^^^ b)) ∧
  crc8 [] = 0xFF#8 ∧ (∀ (bytes : List Byte) (b : Byte), crc8 (bytes ++ [b]) = crc8Byte (crc8 bytes) b)

/-- R68, R77: `CRC.CLEAR` and then one `CRC.UPDATE` per byte leave `crc8` of the bytes in the accumulator
and in the response, for every sequence. -/
def Obligations.CrcRequestsComputeCrc8 : Prop :=
  ∀ (bytes : List Byte) (s : State), s.seqState = .idle →
    execAll (.crcClear :: bytes.map Instr.crcUpdate) s = some
      { s with crcAcc := crc8 bytes, rspValid := true, rspCode := 0#3,
               rspData := BitVec.ofNat 40 (crc8 bytes).toNat }

/-- R79: (a) the empty value, (b) a single flipped bit changes the CRC, for every message, (c) a message
with its CRC appended has CRC 0, (d) linearity, (e) the shift step and the byte step are bijections. -/
def Obligations.CrcProperties : Prop :=
  crc8 [] = 0xFF#8 ∧
  (∀ (x y : List Byte) (b : Byte) (k : Fin 8),
    crc8 (x ++ (b ^^^ BitVec.twoPow 8 k.val) :: y) ≠ crc8 (x ++ b :: y)) ∧
  (∀ m : List Byte, crc8 (m ++ [crc8 m]) = 0x00#8) ∧
  (∀ x y : List Byte, x.length = y.length →
    crc8 (List.zipWith (· ^^^ ·) x y) = crc8 x ^^^ crc8 y ^^^ crc8 (List.replicate x.length 0#8)) ∧
  (∀ a c : Byte, crc8Bit a = crc8Bit c → a = c) ∧ (∀ d : Byte, ∃ a, crc8Bit a = d) ∧
  (∀ a c b : Byte, crc8Byte a b = crc8Byte c b → a = c) ∧ (∀ d b : Byte, ∃ a, crc8Byte a b = d)

/-! ## Field decoder -/

/-- R83, on integers; the sixth byte plays no part. -/
def Obligations.UnpackFormulas : Prop :=
  ∀ d1 d2 d3 d4 d5 d6 e6 : Byte,
    (unpackRaws d1 d2 d3 d4 d5 d6).1.toNat = (d1.toNat * 65536 + d2.toNat * 256 + d3.toNat) / 16 ∧
    (unpackRaws d1 d2 d3 d4 d5 d6).2.toNat = (d3.toNat % 16) * 65536 + d4.toNat * 256 + d5.toNat ∧
    unpackRaws d1 d2 d3 d4 d5 d6 = unpackRaws d1 d2 d3 d4 d5 e6

/-- R84: the packed layout, on integers, and that packing and unpacking are inverse to each other, in both
directions. -/
def Obligations.PackUnpackInverse : Prop :=
  (∀ h t : Raw,
    (packRaws h t).1.toNat = h.toNat / 2 ^ 12 ∧ (packRaws h t).2.1.toNat = h.toNat / 2 ^ 4 % 256 ∧
    (packRaws h t).2.2.1.toNat = h.toNat % 16 * 16 + t.toNat / 2 ^ 16 ∧
    (packRaws h t).2.2.2.1.toNat = t.toNat / 2 ^ 8 % 256 ∧ (packRaws h t).2.2.2.2.toNat = t.toNat % 256) ∧
  (∀ (h t : Raw) (d6 : Byte),
    unpackRaws (packRaws h t).1 (packRaws h t).2.1 (packRaws h t).2.2.1 (packRaws h t).2.2.2.1
      (packRaws h t).2.2.2.2 d6 = (h, t)) ∧
  (∀ d1 d2 d3 d4 d5 d6 : Byte,
    packRaws (unpackRaws d1 d2 d3 d4 d5 d6).1 (unpackRaws d1 d2 d3 d4 d5 d6).2 = (d1, d2, d3, d4, d5))

/-- R85: the response of `UNPACK` is the two raw values, which is `REQ_ARG[47:8]` of its request. -/
def Obligations.UnpackResult : Prop :=
  ∀ s : State, s.seqState = .idle →
    (∀ d1 d2 d3 d4 d5 d6 : Byte, exec (.unpack d1 d2 d3 d4 d5 d6) s = Outcome.next
      { s with rspValid := true, rspCode := 0#3,
               rspData := BitVec.ofNat 40 ((unpackRaws d1 d2 d3 d4 d5 d6).1.toNat * 2 ^ 20 +
                 (unpackRaws d1 d2 d3 d4 d5 d6).2.toNat) }) ∧
    (∀ arg : BitVec 48, exec (decodeRequest ⟨0x2#4, arg⟩) s = Outcome.next
      { s with rspValid := true, rspCode := 0#3, rspData := BitVec.ofNat 40 (arg.toNat / 2 ^ 8) })

/-- R86: `floor(h * 100 / 2^20)` and `floor(t * 200 / 2^20) - 50`, the floor by its defining bounds. -/
def Obligations.ScaleFormulas : Prop :=
  ∀ h t : Raw,
    (scaleRaws h t).1 * 2 ^ 20 ≤ h.toNat * 100 ∧ h.toNat * 100 < ((scaleRaws h t).1 + 1) * 2 ^ 20 ∧
    ((scaleRaws h t).2 + 50) * 2 ^ 20 ≤ (t.toNat : Int) * 200 ∧
    (t.toNat : Int) * 200 < ((scaleRaws h t).2 + 51) * 2 ^ 20

/-- R88: the products fit 27 and 28 bits, and the narrower forms give the same results. -/
def Obligations.ScaleNarrowForms : Prop :=
  ∀ h t : Raw, h.toNat * 100 ≤ 104857500 ∧ h.toNat * 100 < 2 ^ 27 ∧
    t.toNat * 200 ≤ 209715000 ∧ t.toNat * 200 < 2 ^ 28 ∧
    (scaleRaws h t).1 = (h.toNat * 25) >>> 18 ∧
    (scaleRaws h t).2 = (((t.toNat * 25) >>> 17 : Nat) : Int) - 50

/-- R89: the ranges, both bounds reached at raw 0 and raw 2^20 - 1, and monotony in each argument. -/
def Obligations.ScaleRangesAndMonotony : Prop :=
  (∀ h t : Raw, (scaleRaws h t).1 ≤ 99 ∧ -50 ≤ (scaleRaws h t).2 ∧ (scaleRaws h t).2 ≤ 149) ∧
  scaleRaws 0#20 0#20 = (0, -50) ∧ scaleRaws 1048575#20 1048575#20 = (99, 149) ∧
  (∀ h h' t t' : Raw, h.toNat ≤ h'.toNat → t.toNat ≤ t'.toNat →
    (scaleRaws h t).1 ≤ (scaleRaws h' t').1 ∧ (scaleRaws h t).2 ≤ (scaleRaws h' t').2)

/-- R87: the response of `SCALE`: `[23:16]` the percentage, `[15:0]` the temperature in 16-bit two's
complement, the rest 0. -/
def Obligations.ScaleResult : Prop :=
  ∀ s : State, s.seqState = .idle →
    (∀ h t : Raw, exec (.scale h t) s = Outcome.next
      { s with rspValid := true, rspCode := 0#3,
               rspData := measurementWord (scaleRaws h t).1 (scaleRaws h t).2 }) ∧
    (∀ arg : BitVec 48, decodeRequest ⟨0x3#4, arg⟩ =
      .scale (BitVec.ofNat 20 (arg.toNat / 2 ^ 20)) (BitVec.ofNat 20 arg.toNat))

/-- R90: the two integers can be read back from the payload that `SCALE` and `READ` post (`measurementOf`),
the temperature signed, and bits 39:23 are 0; so they can from `RSP_DATA` after `SCALE`. -/
def Obligations.MeasurementPayloadReadsBack : Prop :=
  (∀ h t : Raw,
    ((measurementOf h t).extractLsb' 16 8).toNat = (scaleRaws h t).1 ∧
    ((measurementOf h t).extractLsb' 0 16).toInt = (scaleRaws h t).2 ∧
    (measurementOf h t).extractLsb' 23 17 = 0#17) ∧
  (∀ (s : State) (h t : Raw), s.seqState = .idle →
    ∃ u, exec (.scale h t) s = Outcome.next u ∧
      (u.rspData.extractLsb' 16 8).toNat = (scaleRaws h t).1 ∧
      (u.rspData.extractLsb' 0 16).toInt = (scaleRaws h t).2 ∧ u.rspData.extractLsb' 23 17 = 0#17)

/-! ## Session and wire commands -/

/-- R115, R116: acceptance of `OPEN`. -/
def Obligations.OpenAcceptance : Prop :=
  ∀ s : State, s.seqState = .idle →
    (s.sessionOpen = false → exec .openSession s =
      Outcome.next { s with rspValid := false, seqState := .openSend }) ∧
    (s.sessionOpen = true → exec .openSession s =
      Outcome.next { s with rspValid := true, rspCode := 7#3, rspData := 0#40 })

/-- R117: `CLOSE` is opcode 0x6, with a session open, without one, and presented to a busy core. -/
def Obligations.CloseResult : Prop :=
  (∀ arg : BitVec 48, decodeRequest ⟨0x6#4, arg⟩ = .closeSession) ∧
  (∀ s : State, s.seqState ≠ .idle → exec .closeSession s = Outcome.next s) ∧
  ∀ s : State, s.seqState = .idle →
    (s.sessionOpen = true → exec .closeSession s =
      Outcome.next { s with sessionOpen := false, rspValid := true, rspCode := 0#3, rspData := 0#40 }) ∧
    (s.sessionOpen = false → exec .closeSession s =
      Outcome.next { s with rspValid := true, rspCode := 7#3, rspData := 0#40 })

/-- R98 for `INIT_SEND`, R115 and R136 for `OPEN_SEND`: the command goes out to `0x38`, and the answer
decides. -/
def Obligations.InitCommandResult : Prop :=
  ∀ (s : State) (rest : List BusAnswer),
    (s.seqState = .openSend → s.bus = .ok :: rest → exec .init s = Outcome.next
      { s with seqState := .openWait, bus := rest,
               trace := s.trace ++ [.send 0x38#7 [0xBE#8, 0x08#8, 0x00#8] .ok] }) ∧
    (s.seqState = .openSend → s.bus = .err :: rest → exec .init s = Outcome.next
      { s with seqState := .idle, rspValid := true, rspCode := 4#3, rspData := 0#40, bus := rest,
               trace := s.trace ++ [.send 0x38#7 [0xBE#8, 0x08#8, 0x00#8] .err] }) ∧
    (s.seqState = .initSend → s.bus = .ok :: rest → exec .init s = Outcome.next
      { s with seqState := .initWait, bus := rest,
               trace := s.trace ++ [.send 0x38#7 [0xBE#8, 0x08#8, 0x00#8] .ok] }) ∧
    (s.seqState = .initSend → s.bus = .err :: rest → exec .init s = Outcome.next
      { s with seqState := .idle, rspValid := true, rspCode := 1#3, rspData := 0#40, bus := rest,
               trace := s.trace ++ [.send 0x38#7 [0xBE#8, 0x08#8, 0x00#8] .err] })

/-- R100: the same of `TRIG_SEND`. -/
def Obligations.TrigCommandResult : Prop :=
  ∀ (s : State) (rest : List BusAnswer),
    (s.seqState = .trigSend → s.bus = .ok :: rest → exec .trig s = Outcome.next
      { s with seqState := .settleWait, bus := rest,
               trace := s.trace ++ [.send 0x38#7 [0xAC#8, 0x33#8, 0x00#8] .ok] }) ∧
    (s.seqState = .trigSend → s.bus = .err :: rest → exec .trig s = Outcome.next
      { s with seqState := .idle, rspValid := true, rspCode := 1#3, rspData := 0#40, bus := rest,
               trace := s.trace ++ [.send 0x38#7 [0xAC#8, 0x33#8, 0x00#8] .err] })

/-- `SRST` as an instruction is one send transaction of the byte `0xBA` (R54, R125) that no register of the
core takes part in: the model's choice (assumption log, entry 8). And no step of the core ever sends it. -/
def Obligations.SoftResetIsABareSendNoStepMakes : Prop :=
  (∀ (s : State) (rest : List BusAnswer),
    (s.bus = .ok :: rest → exec .srst s = Outcome.next
      { s with bus := rest, trace := s.trace ++ [.send 0x38#7 [0xBA#8] .ok] }) ∧
    (s.bus = .err :: rest → exec .srst s = Outcome.next
      { s with bus := rest, trace := s.trace ++ [.send 0x38#7 [0xBA#8] .err] })) ∧
  (∀ s t : State, step s = Outcome.next t →
    ∀ a ans, Event.send a [0xBA#8] ans ∈ t.trace → Event.send a [0xBA#8] ans ∈ s.trace)

/-- R115, R116: the whole of `OPEN`, from an idle core that takes the request at the port: with a session
open one step refuses it; else the core passes through `OPEN_SEND`, and with the answer `ok` through
`OPEN_WAIT`, three steps in all sending `INIT`, waiting `T_INIT_MS` and opening the session, and with `err`
two steps end in `InitError` with no delay. -/
def Obligations.OpenRunsToItsResponse : Prop :=
  ∀ (s : State) (arg : BitVec 48) (rest : List BusAnswer), configLegal s.cfg = true →
    s.seqState = .idle → s.host = [] → s.port = some ⟨0x4#4, arg⟩ →
    (s.sessionOpen = true → runSteps 1 s = Outcome.next
      { s with rspValid := true, rspCode := 7#3, rspData := 0#40, port := none }) ∧
    (s.sessionOpen = false → runSteps 1 s = Outcome.next
      { s with rspValid := false, seqState := .openSend, port := none }) ∧
    (s.sessionOpen = false → s.bus = .ok :: rest → runSteps 2 s = Outcome.next
      { s with rspValid := false, seqState := .openWait, port := none, bus := rest,
               trace := s.trace ++ [.send 0x38#7 [0xBE#8, 0x08#8, 0x00#8] .ok] }) ∧
    (s.sessionOpen = false → s.bus = .ok :: rest → runSteps 3 s = Outcome.next
      { s with sessionOpen := true, rspValid := true, rspCode := 0#3, rspData := 0#40, port := none,
               bus := rest,
               trace := s.trace ++ [.send 0x38#7 [0xBE#8, 0x08#8, 0x00#8] .ok, .delay s.cfg.tInitMs] }) ∧
    (s.sessionOpen = false → s.bus = .err :: rest → runSteps 2 s = Outcome.next
      { s with rspValid := true, rspCode := 4#3, rspData := 0#40, port := none, bus := rest,
               trace := s.trace ++ [.send 0x38#7 [0xBE#8, 0x08#8, 0x00#8] .err] })

/-! ## The sequencer -/

/-- R96: `READ` is opcode 0x5, not accepted by a busy core, refused without a session, else started in
the state that `INIT_POLICY` says. -/
def Obligations.ReadAcceptance : Prop :=
  (∀ arg : BitVec 48, decodeRequest ⟨0x5#4, arg⟩ = .readMeasurement) ∧
  (∀ s : State, s.seqState ≠ .idle → exec .readMeasurement s = Outcome.next s) ∧
  ∀ s : State, s.seqState = .idle →
    (s.sessionOpen = false → exec .readMeasurement s =
      Outcome.next { s with rspValid := true, rspCode := 7#3, rspData := 0#40 }) ∧
    (s.sessionOpen = true → s.cfg.policy = .everyRead → exec .readMeasurement s =
      Outcome.next { s with rspValid := false, seqState := .initSend }) ∧
    (s.sessionOpen = true → s.cfg.policy = .onceAtOpen → exec .readMeasurement s =
      Outcome.next { s with rspValid := false, seqState := .trigSend })

/-- R99, R101: the delays before the trigger and before the first receive. -/
def Obligations.InitAndSettleDelays : Prop :=
  ∀ s : State,
    (s.seqState = .initWait → coreStep s = Outcome.next
      { s with seqState := .trigSend, trace := s.trace ++ [.delay s.cfg.tInitMs] }) ∧
    (s.seqState = .settleWait → coreStep s = Outcome.next
      { s with seqState := .pollRecv, attempt := 1#4, trace := s.trace ++ [.delay s.cfg.tSettleMs] })

/-- R102, R103: one receive, and the BUSY test on bit 7 of its first byte. -/
def Obligations.PollReceiveResult : Prop :=
  ∀ (s : State) (rest : List BusAnswer), s.seqState = .pollRecv →
    (∀ f : Frame, s.bus = .okFrame f :: rest → f.b0.toNat < 128 → coreStep s = Outcome.next
      { s with seqState := .validate, frame := f, bus := rest,
               trace := s.trace ++ [.recv 0x38#7 7 (.ok f)] }) ∧
    (∀ f : Frame, s.bus = .okFrame f :: rest → 128 ≤ f.b0.toNat → coreStep s = Outcome.next
      { s with seqState := .pollWait, frame := f, bus := rest,
               trace := s.trace ++ [.recv 0x38#7 7 (.ok f)] }) ∧
    (∀ k : Fin 7, s.bus = .short k :: rest → coreStep s = Outcome.next
      { s with seqState := .idle, rspValid := true, rspCode := 1#3, rspData := 0#40, bus := rest,
               trace := s.trace ++ [.recv 0x38#7 7 (.short k)] }) ∧
    (s.bus = .err :: rest → coreStep s = Outcome.next
      { s with seqState := .idle, rspValid := true, rspCode := 1#3, rspData := 0#40, bus := rest,
               trace := s.trace ++ [.recv 0x38#7 7 .err] })

/-- R104: the delay after every busy frame, the tenth included, then the next attempt, or
`SensorBusyError` (the failure of R105). -/
def Obligations.PollWaitResult : Prop :=
  ∀ s : State, s.seqState = .pollWait →
    (s.attempt.toNat < 10 → coreStep s = Outcome.next
      { s with seqState := .pollRecv, attempt := BitVec.ofNat 4 (s.attempt.toNat + 1),
               trace := s.trace ++ [.delay 10] }) ∧
    (s.attempt.toNat = 10 → coreStep s = Outcome.next
      { s with seqState := .idle, rspValid := true, rspCode := 2#3, rspData := 0#40,
               trace := s.trace ++ [.delay 10] })

/-- R106: the CRC over bytes 0 to 5 is left in the accumulator and compared with byte 6. -/
def Obligations.ValidateResult : Prop :=
  ∀ s : State, s.seqState = .validate →
    (crc8 [s.frame.b0, s.frame.b1, s.frame.b2, s.frame.b3, s.frame.b4, s.frame.b5] = s.frame.b6 →
      coreStep s = Outcome.next { s with seqState := .decode, crcAcc := s.frame.b6 }) ∧
    (crc8 [s.frame.b0, s.frame.b1, s.frame.b2, s.frame.b3, s.frame.b4, s.frame.b5] ≠ s.frame.b6 →
      coreStep s = Outcome.next
        { s with seqState := .idle, rspValid := true, rspCode := 3#3, rspData := 0#40,
                 crcAcc := crc8 [s.frame.b0, s.frame.b1, s.frame.b2, s.frame.b3, s.frame.b4, s.frame.b5] })

/-- R107: unpack and scale the data bytes, post the measurement. -/
def Obligations.DecodeStepResult : Prop :=
  ∀ (s : State) (h t : Raw) (p : Nat) (c : Int), s.seqState = .decode →
    unpackRaws s.frame.b1 s.frame.b2 s.frame.b3 s.frame.b4 s.frame.b5 s.frame.b6 = (h, t) →
    scaleRaws h t = (p, c) →
    coreStep s = Outcome.next
      { s with seqState := .idle, rspValid := true, rspCode := 0#3, rspData := measurementWord p c }

/-- R111, with the transitions of `OPEN` (R115): no step of the core takes any transition but these. The
position stays only in an idle core, and in a transaction without an answer, where nothing changes at all
(assumption log, entry 2). -/
def Obligations.NoOtherTransition : Prop :=
  ∀ s t : State, coreStep s = Outcome.next t →
    (s.seqState = .idle ∧ t.seqState = .idle) ∨
    (transacting s.seqState = true ∧ s.bus = [] ∧ t = s) ∨
    (s.seqState, t.seqState) ∈
      [(SeqState.idle, SeqState.openSend), (.openSend, .openWait), (.openSend, .idle), (.openWait, .idle),
       (.idle, .initSend), (.idle, .trigSend), (.initSend, .initWait), (.initSend, .idle),
       (.initWait, .trigSend), (.trigSend, .settleWait), (.trigSend, .idle), (.settleWait, .pollRecv),
       (.pollRecv, .validate), (.pollRecv, .pollWait), (.pollRecv, .idle), (.pollWait, .pollRecv),
       (.pollWait, .idle), (.validate, .decode), (.validate, .idle), (.decode, .idle)]

/-! ## Frames -/

/-- The pure requests, `CLOSE` and the reserved opcodes touch neither the bus nor the sequencer's data:
only the response, the accumulator (for `CRC.*`) and `SESSION_OPEN` (for `CLOSE`) may change. The frame
buffer is the block's only writable memory (R33); every byte of it is unchanged. -/
def Obligations.OneStepRequestFrame : Prop :=
  ∀ (i : Instr) (s t : State), exec i s = Outcome.next t →
    (match i with
      | .crcClear | .crcUpdate _ | .unpack _ _ _ _ _ _ | .scale _ _ | .closeSession | .reserved7
      | .reserved8F _ => True
      | _ => False) →
    t.cfg = s.cfg ∧ t.seqState = s.seqState ∧ t.attempt = s.attempt ∧
    (∀ k, frameByte t.frame k = frameByte s.frame k) ∧ t.port = s.port ∧ t.host = s.host ∧
    t.bus = s.bus ∧ t.trace = s.trace ∧
    (i ≠ .closeSession → t.sessionOpen = s.sessionOpen) ∧
    (i ≠ .crcClear → (∀ b, i ≠ .crcUpdate b) → t.crcAcc = s.crcAcc)

/-- Acceptance of `OPEN` and of `READ` changes the sequencer's position and the response, nothing else;
`RSP_CODE` and `RSP_DATA` only with a refusal. -/
def Obligations.AcceptanceFrame : Prop :=
  ∀ (i : Instr) (s t : State), i = .openSession ∨ i = .readMeasurement → exec i s = Outcome.next t →
    t.cfg = s.cfg ∧ t.sessionOpen = s.sessionOpen ∧ t.attempt = s.attempt ∧
    (∀ k, frameByte t.frame k = frameByte s.frame k) ∧ t.crcAcc = s.crcAcc ∧ t.port = s.port ∧
    t.host = s.host ∧ t.bus = s.bus ∧ t.trace = s.trace ∧
    (t.rspValid = false ∨ s.seqState ≠ .idle → t.rspCode = s.rspCode ∧ t.rspData = s.rspData)

/-- A wire command changes no register but those its answer decides on: the session, the attempt, the
frame buffer and the accumulator stay, and so do the response registers unless the answer is `err`. The
model's own in this: a command in a state that does not issue it, and `SRST` in every state, touches no
register (assumption log, entry 8), and without an answer nothing happens (entry 2). -/
def Obligations.WireCommandFrame : Prop :=
  ∀ (i : Instr) (s t : State), i = .init ∨ i = .trig ∨ i = .srst → exec i s = Outcome.next t →
    t.cfg = s.cfg ∧ t.sessionOpen = s.sessionOpen ∧ t.attempt = s.attempt ∧
    (∀ k, frameByte t.frame k = frameByte s.frame k) ∧ t.crcAcc = s.crcAcc ∧ t.port = s.port ∧
    t.host = s.host ∧
    (s.bus.head? ≠ some .err →
      t.rspValid = s.rspValid ∧ t.rspCode = s.rspCode ∧ t.rspData = s.rspData) ∧
    (i = .srst → t.seqState = s.seqState ∧ t.rspValid = s.rspValid ∧ t.rspCode = s.rspCode ∧
      t.rspData = s.rspData) ∧
    ((t.trace = s.trace ∧ t.bus = s.bus) ∨
      ∃ bytes ans, encode i = .wire bytes ∧ t.bus = s.bus.tail ∧
        t.trace = s.trace ++ [.send 0x38#7 bytes ans])

/-! ## Who writes what, over every step -/

/-- R14: apart from reset, the frame buffer is written by `POLL_RECV` alone, all seven bytes at once, and
only when the receive answers a whole frame. -/
def Obligations.FrameWrittenOnlyByWholeReceive : Prop :=
  ∀ s t : State, step s = Outcome.next t → resetPending s = false →
    (∀ k, frameByte t.frame k = frameByte s.frame k) ∨
    (s.seqState = .pollRecv ∧ ∃ f rest, s.bus = .okFrame f :: rest ∧
      ∀ k, frameByte t.frame k = frameByte f k)

/-- R15: apart from reset, the accumulator is written by `CRC.CLEAR`, `CRC.UPDATE` and `VALIDATE` alone,
and after `VALIDATE` it is the CRC of bytes 0 to 5 of the frame. -/
def Obligations.AccumulatorWriters : Prop :=
  ∀ s t : State, step s = Outcome.next t → resetPending s = false →
    (t.crcAcc = s.crcAcc ∨ s.seqState = .validate ∨
      (s.seqState = .idle ∧ ∃ r, (hostTurn s).port = some r ∧ (r.op = 0x0#4 ∨ r.op = 0x1#4))) ∧
    (s.seqState = .validate →
      t.crcAcc = crc8 [s.frame.b0, s.frame.b1, s.frame.b2, s.frame.b3, s.frame.b4, s.frame.b5])

/-- R21: `SESSION_OPEN` becomes 1 only where `OPEN` completes, and becomes 0 only by `CLOSE` or reset. -/
def Obligations.SessionOpenWriters : Prop :=
  ∀ s t : State, step s = Outcome.next t →
    (s.sessionOpen = false → t.sessionOpen = true →
      s.seqState = .openWait ∧ t.rspValid = true ∧ t.rspCode = 0#3) ∧
    (s.sessionOpen = true → t.sessionOpen = false →
      resetPending s = true ∨
        (s.seqState = .idle ∧ ∃ arg, (hostTurn s).port = some ⟨0x6#4, arg⟩)) ∧
    (reading s.seqState = true → resetPending s = false → t.sessionOpen = s.sessionOpen)

/-- R22, R23: apart from reset, `RSP_CODE` and `RSP_DATA` change and `RSP_VALID` is set only in a step that
posts a response and leaves the core idle, at the end of an operation in progress or of a request just
accepted; `RSP_VALID` is cleared only where an idle core accepts a request. -/
def Obligations.ResponseWriters : Prop :=
  ∀ s t : State, step s = Outcome.next t → resetPending s = false →
    ((t.rspCode ≠ s.rspCode ∨ t.rspData ≠ s.rspData ∨ (s.rspValid = false ∧ t.rspValid = true)) →
      t.rspValid = true ∧ t.seqState = .idle ∧
        (s.seqState ≠ .idle ∨ ∃ r, (hostTurn s).port = some r ∧ t.port = none)) ∧
    (s.rspValid = true → t.rspValid = false →
      s.seqState = .idle ∧ t.seqState ≠ .idle ∧ ∃ r, (hostTurn s).port = some r ∧ t.port = none)

/-- R142: when a step of a `READ` in progress posts code 0, the frame was received whole by the newest event,
was not busy and passed the CRC check, and the payload is the measurement of its data bytes; any other
response has a zero payload. -/
def Obligations.MeasurementOnlyFromCheckedFrame : Prop :=
  ∀ s t : State, MachineInv s → reading s.seqState = true → resetPending s = false → step s = Outcome.next t →
    t.rspValid = true →
      (t.rspCode = 0#3 ∧ s.seqState = .decode ∧
        s.trace.getLast? = some (.recv 0x38#7 7 (.ok s.frame)) ∧ s.frame.b0.toNat < 128 ∧
        crc8 [s.frame.b0, s.frame.b1, s.frame.b2, s.frame.b3, s.frame.b4, s.frame.b5] = s.frame.b6 ∧
        t.rspData = frameWord s.frame) ∨
      (t.rspCode ≠ 0#3 ∧ t.rspData = 0#40)

/-! ## Invariants -/

/-- Every step keeps the invariant of the machine: the configuration legal, `ATTEMPT` in range, the codes
and the zero payload, the session open throughout a `READ`, the frame that of the newest receive and
checked before it is decoded, and only legal events. -/
def Obligations.StepKeepsInvariant : Prop :=
  ∀ s t : State, MachineInv s → step s = Outcome.next t → MachineInv t

/-- Every step keeps the spacing of transactions: every receive comes directly after a delay, of at least
75 ms after a delivered `TRIG` and at least 10 ms after another receive (R155, R157). -/
def Obligations.StepKeepsReceiveSpacing : Prop :=
  ∀ s t : State, SpacingInv s → step s = Outcome.next t → SpacingInv t

/-! ## Whole operations -/

/-- R109: whenever the pseudocode of `READ` (`readPseudocode`; assumption log, entry 15) reaches a response,
the step rules reach the same state, all registers, answers left and events included, within 26 steps,
busy at every step between. -/
def Obligations.ReadStepsRefinePseudocode : Prop :=
  ∀ (s t : State) (arg : BitVec 48), configLegal s.cfg = true → s.seqState = .idle → s.host = [] →
    s.port = some ⟨0x5#4, arg⟩ → readPseudocode { s with port := none } = some t →
    ∃ n, 0 < n ∧ n ≤ 26 ∧ runSteps n s = Outcome.next t ∧
      ∀ m, 0 < m → m < n → ∃ u, runSteps m s = Outcome.next u ∧ busyO u = true

/-- R110, under both policies: with `k` busy frames first, `k <= 9`, a `READ` makes `k + 1` receives and
`k` poll delays and ends in `OK` or `IntegrityError`; with ten or more it makes ten of each and ends in
`SensorBusyError`, whatever an eleventh frame would hold. -/
def Obligations.BusyFramesDecidePolling : Prop :=
  ∀ (s : State) (arg : BitVec 48) (fs : List Frame) (g : Frame) (rest : List BusAnswer)
    (pre : List Event) (acks : List BusAnswer),
    configLegal s.cfg = true → s.seqState = .idle → s.sessionOpen = true → s.host = [] →
    s.port = some ⟨0x5#4, arg⟩ → (∀ f ∈ fs, 128 ≤ f.b0.toNat) →
    ((s.cfg.policy = .onceAtOpen ∧ acks = [.ok] ∧
        pre = [.send 0x38#7 [0xAC#8, 0x33#8, 0x00#8] .ok, .delay s.cfg.tSettleMs]) ∨
      (s.cfg.policy = .everyRead ∧ acks = [.ok, .ok] ∧
        pre = [.send 0x38#7 [0xBE#8, 0x08#8, 0x00#8] .ok, .delay s.cfg.tInitMs,
          .send 0x38#7 [0xAC#8, 0x33#8, 0x00#8] .ok, .delay s.cfg.tSettleMs])) →
    (fs.length ≤ 9 → g.b0.toNat < 128 → s.bus = acks ++ fs.map BusAnswer.okFrame ++ .okFrame g :: rest →
      ∃ n t, runSteps n s = Outcome.next t ∧ t.seqState = .idle ∧ t.rspValid = true ∧ t.bus = rest ∧
        t.frame = g ∧ t.attempt.toNat = fs.length + 1 ∧ t.sessionOpen = true ∧
        t.trace = s.trace ++ pre ++
          (fs.map (fun f => [Event.recv 0x38#7 7 (.ok f), Event.delay 10])).flatten ++
          [Event.recv 0x38#7 7 (.ok g)] ∧
        (crc8 [g.b0, g.b1, g.b2, g.b3, g.b4, g.b5] = g.b6 → t.rspCode = 0#3 ∧
          t.rspData = frameWord g) ∧
        (crc8 [g.b0, g.b1, g.b2, g.b3, g.b4, g.b5] ≠ g.b6 → t.rspCode = 3#3 ∧ t.rspData = 0#40)) ∧
    (fs.length = 10 → s.bus = acks ++ fs.map BusAnswer.okFrame ++ rest →
      ∃ n t, runSteps n s = Outcome.next t ∧ t.seqState = .idle ∧ t.rspValid = true ∧ t.bus = rest ∧
        t.attempt.toNat = 10 ∧ t.sessionOpen = true ∧ t.rspCode = 2#3 ∧ t.rspData = 0#40 ∧
        t.crcAcc = s.crcAcc ∧
        t.trace = s.trace ++ pre ++
          (fs.map (fun f => [Event.recv 0x38#7 7 (.ok f), Event.delay 10])).flatten)

/-- R112: from every state with `ATTEMPT` in range, a step of an operation in progress either waits for
an answer of `BUS` (assumption log, entry 2), or strictly lowers a bound that is never above 26. -/
def Obligations.AnsweredStepsTerminate : Prop :=
  ∀ s t : State, AttemptInv s → s.seqState ≠ .idle → step s = Outcome.next t →
    remaining s ≤ 26 ∧
    ((transacting s.seqState = true ∧ s.bus = [] ∧ t = hostTurn s) ∨ remaining t < remaining s)

/-- R118: what a `READ` does and answers does not depend on what earlier operations left in `FRAME`,
`ATTEMPT`, `CRC_ACC` and the response registers: two runs that differ only there stay alike at every
step once the `READ` is accepted, in position, session, events and answers taken, and in the response
(`alikeOutside`). -/
def Obligations.ReadIndependentOfLeftovers : Prop :=
  ∀ (n : Nat) (s t : State) (arg : BitVec 48), s.seqState = .idle → t.seqState = .idle →
    s.host = [] → t.host = [] → s.port = some ⟨0x5#4, arg⟩ → t.port = s.port → t.cfg = s.cfg →
    t.sessionOpen = s.sessionOpen → t.bus = s.bus → t.trace = s.trace →
    alikeOutside (runSteps (n + 1) s) (runSteps (n + 1) t)

/-- R165: a run without further host moves stands still exactly where its test is complete or malformed, and
never both: over with the script used up, over with answers left, or out of answers while the core waits.
When a run counts as over is the model's choice (assumption log, entry 18), and so is that waiting is a
step without effect (entry 2). -/
def Obligations.RunStandsStillOnlyAtItsEnd : Prop :=
  ∀ s : State, configLegal s.cfg = true → s.host = [] →
    (step s = Outcome.next s ↔ testComplete s = true ∨ testMalformed s = true) ∧
    ¬ (testComplete s = true ∧ testMalformed s = true)
end

