-- ==== Sys2Proof/Laws/Bits.lean ====
section
/-! SUPPORT. What concatenation is, bit by bit and as a number. -/

namespace Sys2Proof

/-- Bit `i` of `hi ‖ lo`. -/
@[simp] theorem joinBits_getLsbD {m n : Nat} (w : Nat) (hi : BitVec m) (lo : BitVec n) (i : Nat) :
    (joinBits w hi lo).getLsbD i = (decide (i < w) && if i < n then lo.getLsbD i else hi.getLsbD (i - n)) := by
  simp only [joinBits, BitVec.getLsbD_or, BitVec.getLsbD_shiftLeft, BitVec.getLsbD_setWidth]
  by_cases hw : i < w <;> by_cases hn : i < n <;> simp [hw, hn]
  rw [BitVec.getLsbD_of_ge lo i (by omega)]
  simp [show i - n < w by omega]

/-- Bit `i` of `hi ‖ lo`, for an index known to be in range. -/
@[simp] theorem joinBits_getElem {m n : Nat} (w : Nat) (hi : BitVec m) (lo : BitVec n) (i : Nat) (h : i < w) :
    (joinBits w hi lo)[i] = if i < n then lo.getLsbD i else hi.getLsbD (i - n) := by
  rw [← BitVec.getLsbD_eq_getElem h, joinBits_getLsbD]
  simp [h]

/-- `hi ‖ lo` as a number, where it fits. -/
theorem joinBits_toNat {m n w : Nat} (h : m + n ≤ w) (hi : BitVec m) (lo : BitVec n) :
    (joinBits w hi lo).toNat = hi.toNat * 2 ^ n + lo.toNat := by
  have hhi := hi.isLt
  have hlo := lo.isLt
  have hm : 2 ^ m ≤ 2 ^ w := Nat.pow_le_pow_right (by decide) (by omega)
  have hn : 2 ^ n ≤ 2 ^ w := Nat.pow_le_pow_right (by decide) (by omega)
  have hmn : hi.toNat * 2 ^ n < 2 ^ w := by
    have h1 : hi.toNat * 2 ^ n < 2 ^ m * 2 ^ n := Nat.mul_lt_mul_of_pos_right hhi (Nat.two_pow_pos n)
    rw [← Nat.pow_add] at h1
    exact Nat.lt_of_lt_of_le h1 (Nat.pow_le_pow_right (by decide) h)
  simp only [joinBits, BitVec.toNat_or, BitVec.toNat_shiftLeft, BitVec.toNat_setWidth,
    Nat.mod_eq_of_lt (Nat.lt_of_lt_of_le hhi hm), Nat.mod_eq_of_lt (Nat.lt_of_lt_of_le hlo hn),
    Nat.shiftLeft_eq, Nat.mod_eq_of_lt hmn]
  rw [Nat.mul_comm, Nat.two_pow_add_eq_or_of_lt hlo]

end Sys2Proof
end

