-- ==== Sys2Proof/Laws/State.lean ====
section
/-! SUPPORT. The small lemmas of State: for each named update, what every field is afterwards. -/

namespace Sys2Proof.Machine

/-! ## `respond` -/

@[simp] theorem respond_cfg (code : BitVec 3) (data : BitVec 40) (s : State) : (respond code data s).cfg = s.cfg := rfl
@[simp] theorem respond_sessionOpen (code : BitVec 3) (data : BitVec 40) (s : State) : (respond code data s).sessionOpen = s.sessionOpen := rfl
@[simp] theorem respond_seqState (code : BitVec 3) (data : BitVec 40) (s : State) : (respond code data s).seqState = .idle := rfl
@[simp] theorem respond_attempt (code : BitVec 3) (data : BitVec 40) (s : State) : (respond code data s).attempt = s.attempt := rfl
@[simp] theorem respond_frame (code : BitVec 3) (data : BitVec 40) (s : State) : (respond code data s).frame = s.frame := rfl
@[simp] theorem respond_crcAcc (code : BitVec 3) (data : BitVec 40) (s : State) : (respond code data s).crcAcc = s.crcAcc := rfl
@[simp] theorem respond_rspValid (code : BitVec 3) (data : BitVec 40) (s : State) : (respond code data s).rspValid = true := rfl
@[simp] theorem respond_rspCode (code : BitVec 3) (data : BitVec 40) (s : State) : (respond code data s).rspCode = code := rfl
@[simp] theorem respond_rspData (code : BitVec 3) (data : BitVec 40) (s : State) : (respond code data s).rspData = data := rfl
@[simp] theorem respond_port (code : BitVec 3) (data : BitVec 40) (s : State) : (respond code data s).port = s.port := rfl
@[simp] theorem respond_host (code : BitVec 3) (data : BitVec 40) (s : State) : (respond code data s).host = s.host := rfl
@[simp] theorem respond_bus (code : BitVec 3) (data : BitVec 40) (s : State) : (respond code data s).bus = s.bus := rfl
@[simp] theorem respond_trace (code : BitVec 3) (data : BitVec 40) (s : State) : (respond code data s).trace = s.trace := rfl

/-! ## `failWith` -/

@[simp] theorem failWith_cfg (k : ResultKind) (s : State) : (failWith k s).cfg = s.cfg := rfl
@[simp] theorem failWith_sessionOpen (k : ResultKind) (s : State) : (failWith k s).sessionOpen = s.sessionOpen := rfl
@[simp] theorem failWith_seqState (k : ResultKind) (s : State) : (failWith k s).seqState = .idle := rfl
@[simp] theorem failWith_attempt (k : ResultKind) (s : State) : (failWith k s).attempt = s.attempt := rfl
@[simp] theorem failWith_frame (k : ResultKind) (s : State) : (failWith k s).frame = s.frame := rfl
@[simp] theorem failWith_crcAcc (k : ResultKind) (s : State) : (failWith k s).crcAcc = s.crcAcc := rfl
@[simp] theorem failWith_rspValid (k : ResultKind) (s : State) : (failWith k s).rspValid = true := rfl
@[simp] theorem failWith_rspCode (k : ResultKind) (s : State) : (failWith k s).rspCode = resultCode k := rfl
@[simp] theorem failWith_rspData (k : ResultKind) (s : State) : (failWith k s).rspData = 0#40 := rfl
@[simp] theorem failWith_port (k : ResultKind) (s : State) : (failWith k s).port = s.port := rfl
@[simp] theorem failWith_host (k : ResultKind) (s : State) : (failWith k s).host = s.host := rfl
@[simp] theorem failWith_bus (k : ResultKind) (s : State) : (failWith k s).bus = s.bus := rfl
@[simp] theorem failWith_trace (k : ResultKind) (s : State) : (failWith k s).trace = s.trace := rfl

/-! ## `doneWith` -/

@[simp] theorem doneWith_cfg (data : BitVec 40) (s : State) : (doneWith data s).cfg = s.cfg := rfl
@[simp] theorem doneWith_sessionOpen (data : BitVec 40) (s : State) : (doneWith data s).sessionOpen = s.sessionOpen := rfl
@[simp] theorem doneWith_seqState (data : BitVec 40) (s : State) : (doneWith data s).seqState = .idle := rfl
@[simp] theorem doneWith_attempt (data : BitVec 40) (s : State) : (doneWith data s).attempt = s.attempt := rfl
@[simp] theorem doneWith_frame (data : BitVec 40) (s : State) : (doneWith data s).frame = s.frame := rfl
@[simp] theorem doneWith_crcAcc (data : BitVec 40) (s : State) : (doneWith data s).crcAcc = s.crcAcc := rfl
@[simp] theorem doneWith_rspValid (data : BitVec 40) (s : State) : (doneWith data s).rspValid = true := rfl
@[simp] theorem doneWith_rspCode (data : BitVec 40) (s : State) : (doneWith data s).rspCode = 0#3 := rfl
@[simp] theorem doneWith_rspData (data : BitVec 40) (s : State) : (doneWith data s).rspData = data := rfl
@[simp] theorem doneWith_port (data : BitVec 40) (s : State) : (doneWith data s).port = s.port := rfl
@[simp] theorem doneWith_host (data : BitVec 40) (s : State) : (doneWith data s).host = s.host := rfl
@[simp] theorem doneWith_bus (data : BitVec 40) (s : State) : (doneWith data s).bus = s.bus := rfl
@[simp] theorem doneWith_trace (data : BitVec 40) (s : State) : (doneWith data s).trace = s.trace := rfl

/-! ## `record` -/

@[simp] theorem record_cfg (e : Event) (s : State) : (record e s).cfg = s.cfg := rfl
@[simp] theorem record_sessionOpen (e : Event) (s : State) : (record e s).sessionOpen = s.sessionOpen := rfl
@[simp] theorem record_seqState (e : Event) (s : State) : (record e s).seqState = s.seqState := rfl
@[simp] theorem record_attempt (e : Event) (s : State) : (record e s).attempt = s.attempt := rfl
@[simp] theorem record_frame (e : Event) (s : State) : (record e s).frame = s.frame := rfl
@[simp] theorem record_crcAcc (e : Event) (s : State) : (record e s).crcAcc = s.crcAcc := rfl
@[simp] theorem record_rspValid (e : Event) (s : State) : (record e s).rspValid = s.rspValid := rfl
@[simp] theorem record_rspCode (e : Event) (s : State) : (record e s).rspCode = s.rspCode := rfl
@[simp] theorem record_rspData (e : Event) (s : State) : (record e s).rspData = s.rspData := rfl
@[simp] theorem record_port (e : Event) (s : State) : (record e s).port = s.port := rfl
@[simp] theorem record_host (e : Event) (s : State) : (record e s).host = s.host := rfl
@[simp] theorem record_bus (e : Event) (s : State) : (record e s).bus = s.bus := rfl
@[simp] theorem record_trace (e : Event) (s : State) : (record e s).trace = s.trace ++ [e] := rfl

/-! ## `delay` -/

@[simp] theorem delay_cfg (ms : Nat) (s : State) : (delay ms s).cfg = s.cfg := rfl
@[simp] theorem delay_sessionOpen (ms : Nat) (s : State) : (delay ms s).sessionOpen = s.sessionOpen := rfl
@[simp] theorem delay_seqState (ms : Nat) (s : State) : (delay ms s).seqState = s.seqState := rfl
@[simp] theorem delay_attempt (ms : Nat) (s : State) : (delay ms s).attempt = s.attempt := rfl
@[simp] theorem delay_frame (ms : Nat) (s : State) : (delay ms s).frame = s.frame := rfl
@[simp] theorem delay_crcAcc (ms : Nat) (s : State) : (delay ms s).crcAcc = s.crcAcc := rfl
@[simp] theorem delay_rspValid (ms : Nat) (s : State) : (delay ms s).rspValid = s.rspValid := rfl
@[simp] theorem delay_rspCode (ms : Nat) (s : State) : (delay ms s).rspCode = s.rspCode := rfl
@[simp] theorem delay_rspData (ms : Nat) (s : State) : (delay ms s).rspData = s.rspData := rfl
@[simp] theorem delay_port (ms : Nat) (s : State) : (delay ms s).port = s.port := rfl
@[simp] theorem delay_host (ms : Nat) (s : State) : (delay ms s).host = s.host := rfl
@[simp] theorem delay_bus (ms : Nat) (s : State) : (delay ms s).bus = s.bus := rfl
@[simp] theorem delay_trace (ms : Nat) (s : State) : (delay ms s).trace = s.trace ++ [.delay ms] := rfl

/-! ## `answered` -/

@[simp] theorem answered_cfg (s : State) : (answered s).cfg = s.cfg := rfl
@[simp] theorem answered_sessionOpen (s : State) : (answered s).sessionOpen = s.sessionOpen := rfl
@[simp] theorem answered_seqState (s : State) : (answered s).seqState = s.seqState := rfl
@[simp] theorem answered_attempt (s : State) : (answered s).attempt = s.attempt := rfl
@[simp] theorem answered_frame (s : State) : (answered s).frame = s.frame := rfl
@[simp] theorem answered_crcAcc (s : State) : (answered s).crcAcc = s.crcAcc := rfl
@[simp] theorem answered_rspValid (s : State) : (answered s).rspValid = s.rspValid := rfl
@[simp] theorem answered_rspCode (s : State) : (answered s).rspCode = s.rspCode := rfl
@[simp] theorem answered_rspData (s : State) : (answered s).rspData = s.rspData := rfl
@[simp] theorem answered_port (s : State) : (answered s).port = s.port := rfl
@[simp] theorem answered_host (s : State) : (answered s).host = s.host := rfl
@[simp] theorem answered_bus (s : State) : (answered s).bus = s.bus.tail := rfl
@[simp] theorem answered_trace (s : State) : (answered s).trace = s.trace := rfl

/-! ## `resetCore` -/

@[simp] theorem resetCore_cfg (s : State) : (resetCore s).cfg = s.cfg := rfl
@[simp] theorem resetCore_sessionOpen (s : State) : (resetCore s).sessionOpen = State.reset.sessionOpen := rfl
@[simp] theorem resetCore_seqState (s : State) : (resetCore s).seqState = State.reset.seqState := rfl
@[simp] theorem resetCore_attempt (s : State) : (resetCore s).attempt = State.reset.attempt := rfl
@[simp] theorem resetCore_frame (s : State) : (resetCore s).frame = State.reset.frame := rfl
@[simp] theorem resetCore_crcAcc (s : State) : (resetCore s).crcAcc = State.reset.crcAcc := rfl
@[simp] theorem resetCore_rspValid (s : State) : (resetCore s).rspValid = State.reset.rspValid := rfl
@[simp] theorem resetCore_rspCode (s : State) : (resetCore s).rspCode = State.reset.rspCode := rfl
@[simp] theorem resetCore_rspData (s : State) : (resetCore s).rspData = State.reset.rspData := rfl
@[simp] theorem resetCore_port (s : State) : (resetCore s).port = s.port := rfl
@[simp] theorem resetCore_host (s : State) : (resetCore s).host = s.host := rfl
@[simp] theorem resetCore_bus (s : State) : (resetCore s).bus = s.bus := rfl
@[simp] theorem resetCore_trace (s : State) : (resetCore s).trace = s.trace := rfl

/-! ## The host's move and the accepted request: what they leave alone -/

@[simp] theorem hostTurn_cfg (s : State) : (hostTurn s).cfg = s.cfg := by
  unfold hostTurn; repeat' split
  all_goals rfl
@[simp] theorem hostTurn_sessionOpen (s : State) : (hostTurn s).sessionOpen = s.sessionOpen := by
  unfold hostTurn; repeat' split
  all_goals rfl
@[simp] theorem hostTurn_seqState (s : State) : (hostTurn s).seqState = s.seqState := by
  unfold hostTurn; repeat' split
  all_goals rfl
@[simp] theorem hostTurn_attempt (s : State) : (hostTurn s).attempt = s.attempt := by
  unfold hostTurn; repeat' split
  all_goals rfl
@[simp] theorem hostTurn_frame (s : State) : (hostTurn s).frame = s.frame := by
  unfold hostTurn; repeat' split
  all_goals rfl
@[simp] theorem hostTurn_crcAcc (s : State) : (hostTurn s).crcAcc = s.crcAcc := by
  unfold hostTurn; repeat' split
  all_goals rfl
@[simp] theorem hostTurn_rspValid (s : State) : (hostTurn s).rspValid = s.rspValid := by
  unfold hostTurn; repeat' split
  all_goals rfl
@[simp] theorem hostTurn_rspCode (s : State) : (hostTurn s).rspCode = s.rspCode := by
  unfold hostTurn; repeat' split
  all_goals rfl
@[simp] theorem hostTurn_rspData (s : State) : (hostTurn s).rspData = s.rspData := by
  unfold hostTurn; repeat' split
  all_goals rfl
@[simp] theorem hostTurn_bus (s : State) : (hostTurn s).bus = s.bus := by
  unfold hostTurn; repeat' split
  all_goals rfl
@[simp] theorem hostTurn_trace (s : State) : (hostTurn s).trace = s.trace := by
  unfold hostTurn; repeat' split
  all_goals rfl
@[simp] theorem takeFetched_cfg (s : State) : (takeFetched s).cfg = s.cfg := by
  unfold takeFetched; split <;> rfl
@[simp] theorem takeFetched_sessionOpen (s : State) : (takeFetched s).sessionOpen = s.sessionOpen := by
  unfold takeFetched; split <;> rfl
@[simp] theorem takeFetched_seqState (s : State) : (takeFetched s).seqState = s.seqState := by
  unfold takeFetched; split <;> rfl
@[simp] theorem takeFetched_attempt (s : State) : (takeFetched s).attempt = s.attempt := by
  unfold takeFetched; split <;> rfl
@[simp] theorem takeFetched_frame (s : State) : (takeFetched s).frame = s.frame := by
  unfold takeFetched; split <;> rfl
@[simp] theorem takeFetched_crcAcc (s : State) : (takeFetched s).crcAcc = s.crcAcc := by
  unfold takeFetched; split <;> rfl
@[simp] theorem takeFetched_rspValid (s : State) : (takeFetched s).rspValid = s.rspValid := by
  unfold takeFetched; split <;> rfl
@[simp] theorem takeFetched_rspCode (s : State) : (takeFetched s).rspCode = s.rspCode := by
  unfold takeFetched; split <;> rfl
@[simp] theorem takeFetched_rspData (s : State) : (takeFetched s).rspData = s.rspData := by
  unfold takeFetched; split <;> rfl
@[simp] theorem takeFetched_host (s : State) : (takeFetched s).host = s.host := by
  unfold takeFetched; split <;> rfl
@[simp] theorem takeFetched_bus (s : State) : (takeFetched s).bus = s.bus := by
  unfold takeFetched; split <;> rfl
@[simp] theorem takeFetched_trace (s : State) : (takeFetched s).trace = s.trace := by
  unfold takeFetched; split <;> rfl

end Sys2Proof.Machine
end

