-- ==== Sys2Proof/Laws/Ops.lean ====
section
/-! SUPPORT. What each shared operation can do, said once: the provers cite these and do not unfold. -/

namespace Sys2Proof.Machine

/-! ## Acceptance -/

/-- An idle core accepts. -/
theorem accept_idle (f : State → State) {s : State} (h : s.seqState = .idle) :
    accept f s = .next (f { s with rspValid := false }) := by
  simp only [accept, h]

/-- A busy core does not. -/
theorem accept_busy (f : State → State) {s : State} (h : s.seqState ≠ .idle) : accept f s = .next s := by
  unfold accept; split <;> first | rfl | exact absurd ‹_› h

/-- Acceptance always answers a next state: that of the operation's start, or the state unchanged. -/
theorem accept_next {f : State → State} {s t : State} (h : accept f s = .next t) :
    (s.seqState = .idle ∧ t = f { s with rspValid := false }) ∨ (s.seqState ≠ .idle ∧ t = s) := by
  by_cases hs : s.seqState = .idle
  · rw [accept_idle f hs] at h; cases h; exact .inl ⟨hs, rfl⟩
  · rw [accept_busy f hs] at h; cases h; exact .inr ⟨hs, rfl⟩

/-! ## Transactions -/

/-- A send answers a next state in three ways: no answer yet, `ok`, `err`. -/
theorem busSend_next {bytes : List Byte} {f : SendAnswer → State → State} {s t : State}
    (h : busSend bytes f s = .next t) :
    (s.bus = [] ∧ t = s) ∨
    (∃ rest, s.bus = .ok :: rest ∧ t = f .ok (record (.send busAddr bytes .ok) (answered s))) ∨
    (∃ rest, s.bus = .err :: rest ∧ t = f .err (record (.send busAddr bytes .err) (answered s))) := by
  unfold busSend at h
  split at h
  · cases h; exact .inl ⟨‹_›, rfl⟩
  · cases h; exact .inr (.inl ⟨_, ‹_›, rfl⟩)
  · cases h; exact .inr (.inr ⟨_, ‹_›, rfl⟩)
  · cases h
  · cases h

/-- A receive answers a next state in four ways: no answer yet, a whole frame, a short one, `err`. -/
theorem busRecv_next {f : RecvAnswer → State → State} {s t : State} (h : busRecv f s = .next t) :
    (s.bus = [] ∧ t = s) ∨
    (∃ fr rest, s.bus = .okFrame fr :: rest ∧
      t = f (.ok fr) (record (.recv busAddr frameLen (.ok fr)) (answered s))) ∨
    (∃ k rest, s.bus = .short k :: rest ∧
      t = f (.short k) (record (.recv busAddr frameLen (.short k)) (answered s))) ∨
    (∃ rest, s.bus = .err :: rest ∧ t = f .err (record (.recv busAddr frameLen .err) (answered s))) := by
  unfold busRecv at h
  split at h
  · cases h; exact .inl ⟨‹_›, rfl⟩
  · cases h; exact .inr (.inl ⟨_, _, ‹_›, rfl⟩)
  · cases h; exact .inr (.inr (.inl ⟨_, _, ‹_›, rfl⟩))
  · cases h; exact .inr (.inr (.inr ⟨_, ‹_›, rfl⟩))
  · cases h

/-! ## The host's move -/

/-- A host move in a state without further moves changes nothing. -/
theorem hostTurn_no_moves {s : State} (h : s.host = []) : hostTurn s = s := by
  simp only [hostTurn, h]

/-- Without further moves no reset is pending. -/
theorem resetPending_no_moves {s : State} (h : s.host = []) : resetPending s = false := by
  simp only [resetPending, h]

/-- A pending reset is the host's next move. -/
theorem resetPending_iff (s : State) : resetPending s = true ↔ ∃ rest, s.host = .reset :: rest := by
  unfold resetPending
  split
  · simp_all
  · rename_i h; simpa using fun rest hr => h rest hr

/-! ## The accepted request -/

/-- An idle core takes the request from the port. -/
theorem takeFetched_idle {s : State} (h : s.seqState = .idle) : takeFetched s = { s with port := none } := by
  simp only [takeFetched, h]

/-- A busy core leaves it there. -/
theorem takeFetched_busy {s : State} (h : s.seqState ≠ .idle) : takeFetched s = s := by
  unfold takeFetched; split <;> first | rfl | exact absurd ‹_› h

end Sys2Proof.Machine
end

