-- ==== Sys2Proof/Laws/PerInstr.lean ====
section
/-! SUPPORT. Statements made once per instruction: the encoding of every well-formed instruction has the
width of its row of spec/opcode_table.json and matches the row under its mask. -/

namespace Sys2Proof.Laws

/-- A row of spec/opcode_table.json: width, match, mask. -/
structure Row where
  width : Nat
  pattern : Nat
  mask : Nat
  deriving DecidableEq, Repr

/-- The row of each instruction, as the table has it. -/
def rowOf : Instr → Row
  | .crcClear => ⟨52, 0x0000000000000, 0xF000000000000⟩
  | .crcUpdate _ => ⟨52, 0x1000000000000, 0xF000000000000⟩
  | .unpack _ _ _ _ _ _ => ⟨52, 0x2000000000000, 0xF000000000000⟩
  | .scale _ _ => ⟨52, 0x3000000000000, 0xF000000000000⟩
  | .openSession => ⟨52, 0x4000000000000, 0xF000000000000⟩
  | .readMeasurement => ⟨52, 0x5000000000000, 0xF000000000000⟩
  | .closeSession => ⟨52, 0x6000000000000, 0xF000000000000⟩
  | .reserved7 => ⟨52, 0x7000000000000, 0xF000000000000⟩
  | .reserved8F _ => ⟨52, 0x8000000000000, 0x8000000000000⟩
  | .init => ⟨24, 0xBE0800, 0xFFFFFF⟩
  | .trig => ⟨24, 0xAC3300, 0xFFFFFF⟩
  | .srst => ⟨8, 0xBA, 0xFF⟩

/-- The bits of a byte sequence as one number, the first byte most significant (spec/30_encoding.md R54). -/
def bytesNumber (bytes : List Byte) : Nat := bytes.foldl (fun n b => n * 256 + b.toNat) 0

/-- Width and bits of a code word. -/
def bitsOf : CodeWord → Nat × Nat
  | .request r => (52, r.op.toNat * 2 ^ 48 + r.arg.toNat)
  | .wire bytes => (8 * bytes.length, bytesNumber bytes)

/-- A number matches a row: right width, and under the mask (a run of high bits down to some bit, or all
bits) the pattern. -/
def Row.fits (r : Row) (bits : Nat × Nat) : Prop := bits.1 = r.width ∧ bits.2 &&& r.mask = r.pattern

/-- The upper bits of a request do not depend on its argument. -/
theorem request_and_mask (op : BitVec 4) (arg : BitVec 48) (m : BitVec 4) :
    (op.toNat * 2 ^ 48 + arg.toNat) &&& (m.toNat * 2 ^ 48) = (op &&& m).toNat * 2 ^ 48 := by
  have ha : arg.toNat < 2 ^ 48 := arg.isLt
  apply Nat.eq_of_testBit_eq
  intro i
  rw [Nat.testBit_and, Nat.mul_comm op.toNat, Nat.testBit_two_pow_mul_add _ ha, Nat.mul_comm m.toNat,
    Nat.testBit_two_pow_mul, Nat.mul_comm (op &&& m).toNat, Nat.testBit_two_pow_mul, BitVec.toNat_and,
    Nat.testBit_and]
  by_cases h : i < 48
  · simp [h, Nat.not_le.mpr h]
  · simp [h, Nat.le_of_not_lt h]

end Sys2Proof.Laws

namespace Sys2Proof.Laws.TableRow

/-- The encoding of a well-formed instruction fits its row. -/
def Statement (i : Instr) : Prop := i.wellFormed = true → (rowOf i).fits (bitsOf (encode i))

theorem crcClear : Statement .crcClear := fun _ => ⟨rfl, request_and_mask 0 0 0xF⟩
theorem crcUpdate (b : Byte) : Statement (.crcUpdate b) := fun _ => ⟨rfl, request_and_mask 1 _ 0xF⟩
theorem unpack (d1 d2 d3 d4 d5 d6 : Byte) : Statement (.unpack d1 d2 d3 d4 d5 d6) :=
  fun _ => ⟨rfl, request_and_mask 2 _ 0xF⟩
theorem scale (h t : Raw) : Statement (.scale h t) := fun _ => ⟨rfl, request_and_mask 3 _ 0xF⟩
theorem openSession : Statement .openSession := fun _ => ⟨rfl, request_and_mask 4 0 0xF⟩
theorem readMeasurement : Statement .readMeasurement := fun _ => ⟨rfl, request_and_mask 5 0 0xF⟩
theorem closeSession : Statement .closeSession := fun _ => ⟨rfl, request_and_mask 6 0 0xF⟩
theorem reserved7 : Statement .reserved7 := fun _ => ⟨rfl, request_and_mask 7 0 0xF⟩
theorem reserved8F (op : BitVec 4) : Statement (.reserved8F op) := fun h => by
  have top : ∀ op : BitVec 4, op.getLsbD 3 = true → (op &&& 8#4).toNat = 8 := by decide
  exact ⟨rfl, (request_and_mask op 0 8).trans (congrArg (· * 2 ^ 48) (top op h))⟩
theorem init : Statement .init := fun _ => ⟨rfl, by decide⟩
theorem trig : Statement .trig := fun _ => ⟨rfl, by decide⟩
theorem srst : Statement .srst := fun _ => ⟨rfl, by decide⟩

end Sys2Proof.Laws.TableRow
end

