-- ==== Sys2Proof/Laws/Runs.lean ====
section
/-! SUPPORT. What the terms of the end of a run say, once: the provers cite these and do not unfold. -/

namespace Sys2Proof.Machine

/-- When a run is over. -/
theorem runOver_iff (s : State) :
    runOver s = true ↔
      s.seqState = .idle ∧ s.port = none ∧ ∀ m ∈ s.host, presents m = false := by
  simp [runOver, busyO, and_assoc]

/-- When the core waits for an answer that the script does not hold. -/
theorem answersRunOut_iff (s : State) :
    answersRunOut s = true ↔ transacting s.seqState = true ∧ s.bus = [] := by
  simp [answersRunOut]

/-- When a run is over with answers left. -/
theorem answersLeftOver_iff (s : State) :
    answersLeftOver s = true ↔ runOver s = true ∧ s.bus ≠ [] := by
  simp [answersLeftOver]

/-- When a run is over and has used up its script. -/
theorem testComplete_iff (s : State) : testComplete s = true ↔ runOver s = true ∧ s.bus = [] := by
  simp [testComplete]

/-- The two ways for a test to be malformed. -/
theorem testMalformed_iff (s : State) :
    testMalformed s = true ↔ answersLeftOver s = true ∨ answersRunOut s = true := by
  simp [testMalformed]

/-- A run has an end state exactly when it is over. -/
theorem endState_isSome (s : State) : (endState s).isSome = runOver s := by
  unfold endState; split <;> simp_all

end Sys2Proof.Machine
end

