-- ==== Sys2Proof/Laws/Step.lean ====
section
/-! SUPPORT. What a step can do, said once: every claim about all steps starts from `step_next` and
`coreStep_next`. -/

namespace Sys2Proof.Machine

/-- A step that answers a next state is a reset, or the core's step after the host's move; the
configuration is legal. -/
theorem step_next {s t : State} (h : step s = .next t) :
    configLegal s.cfg = true ∧
      ((resetPending s = true ∧ t = applyReset s) ∨
        (resetPending s = false ∧ coreStep (hostTurn s) = .next t)) := by
  unfold step at h
  split at h
  · cases h
  · refine ⟨‹_›, ?_⟩
    split at h
    · cases h; exact .inl ⟨‹_›, rfl⟩
    · exact .inr ⟨‹_›, h⟩

/-- A step in a legal configuration with no reset pending is the core's step. -/
theorem step_eq {s : State} (hc : configLegal s.cfg = true) (hr : resetPending s = false) :
    step s = coreStep (hostTurn s) := by
  simp only [step, hc, hr]

/-- The core's step in a busy state is the step of that state. -/
theorem coreStep_busy {s : State} (h : s.seqState ≠ .idle) : coreStep s = seqStep s := by
  unfold coreStep fetch
  split
  · rename_i i hi
    have ht := takeFetched_busy h
    cases hq : s.seqState <;> simp_all [seqStep, exec] <;> subst hi <;> rfl
  · rfl

/-- The core's step in an idle state with a request at the port: the request is taken and run. -/
theorem coreStep_idle {s : State} (h : s.seqState = .idle) {r : Request} (hp : s.port = some r) :
    coreStep s = exec (decodeRequest r) { s with port := none } := by
  simp [coreStep, fetch, h, hp, takeFetched_idle h]

/-- The core's step in an idle state with an empty port: none. -/
theorem coreStep_waiting {s : State} (h : s.seqState = .idle) (hp : s.port = none) :
    coreStep s = .next s := by
  simp [coreStep, fetch, h, hp, seqStep]

/-- A request, as an instruction, always answers a next state, and the response of a request that is
accepted is posted or its operation is under way. -/
theorem exec_request_next (r : Request) (s : State) : ∃ t, exec (decodeRequest r) s = .next t := by
  have key : ∀ f : State → State, ∃ t, accept f s = .next t := fun f => by
    by_cases h : s.seqState = .idle
    · exact ⟨_, accept_idle f h⟩
    · exact ⟨_, accept_busy f h⟩
  unfold decodeRequest
  split <;> exact key _

/-- What the core's step can be: nothing in an idle core, an accepted request, or the step of a state. -/
theorem coreStep_next {s t : State} (h : coreStep s = .next t) :
    (s.seqState = .idle ∧ s.port = none ∧ t = s) ∨
    (s.seqState = .idle ∧ ∃ r, s.port = some r ∧ exec (decodeRequest r) { s with port := none } = .next t) ∨
    (s.seqState ≠ .idle ∧ seqStep s = .next t) := by
  by_cases hq : s.seqState = .idle
  · cases hp : s.port with
    | none => rw [coreStep_waiting hq hp] at h; cases h; exact .inl ⟨hq, rfl, rfl⟩
    | some r => rw [coreStep_idle hq hp] at h; exact .inr (.inl ⟨hq, r, rfl, h⟩)
  · rw [coreStep_busy hq] at h; exact .inr (.inr ⟨hq, h⟩)

/-- What an accepted request can do to an idle core, request by request. -/
theorem exec_request_cases {r : Request} {s t : State} (hq : s.seqState = .idle)
    (h : exec (decodeRequest r) s = .next t) :
    (∃ data, t = doneWith data { s with rspValid := false }) ∨
    (∃ acc, (r.op = 0x0#4 ∨ r.op = 0x1#4) ∧ t = crcRespond acc { s with rspValid := false }) ∨
    (t = failWith .refused { s with rspValid := false }) ∨
    (s.sessionOpen = false ∧ t = { s with rspValid := false, seqState := .openSend }) ∨
    (s.sessionOpen = true ∧ s.cfg.policy = .everyRead ∧
      t = { s with rspValid := false, seqState := .initSend }) ∨
    (s.sessionOpen = true ∧ s.cfg.policy = .onceAtOpen ∧
      t = { s with rspValid := false, seqState := .trigSend }) ∨
    (r.op = 0x6#4 ∧ s.sessionOpen = true ∧
      t = doneWith 0#40 { s with rspValid := false, sessionOpen := false }) := by
  have hop : ∀ n, r.op.toNat = n → r.op = BitVec.ofNat 4 n := fun n hn => by
    rw [← hn]; simp
  unfold decodeRequest at h
  split at h
  · rename_i he
    simp only [exec, execCrcClear, accept_idle _ hq] at h
    cases h; exact .inr (.inl ⟨_, .inl (hop 0 he), rfl⟩)
  · rename_i he
    simp only [exec, execCrcUpdate, accept_idle _ hq] at h
    cases h; exact .inr (.inl ⟨_, .inr (hop 1 he), rfl⟩)
  · simp only [exec, execUnpack, accept_idle _ hq] at h
    cases h; exact .inl ⟨_, rfl⟩
  · simp only [exec, execScale, accept_idle _ hq] at h
    cases h; exact .inl ⟨_, rfl⟩
  · simp only [exec, execOpenSession, accept_idle _ hq, openStart] at h
    cases ho : s.sessionOpen <;> simp [ho] at h <;> subst h <;> simp
  · simp only [exec, execReadMeasurement, accept_idle _ hq, readStart] at h
    cases ho : s.sessionOpen <;> cases hp : s.cfg.policy <;> simp [ho, hp] at h <;> subst h <;> simp
  · rename_i he
    simp only [exec, execCloseSession, accept_idle _ hq, closeStart] at h
    cases ho : s.sessionOpen
    · simp [ho] at h; subst h; simp
    · simp [ho] at h; subst h; simp [hop 6 he]
  · simp only [exec, execReserved7, accept_idle _ hq] at h
    cases h; exact .inr (.inr (.inl rfl))
  · simp only [exec, execReserved8F, accept_idle _ hq] at h
    cases h; exact .inr (.inr (.inl rfl))

end Sys2Proof.Machine
end

