-- ==== Sys2Proof/Laws/Transitions.lean ====
section
/-! SUPPORT. The transition tables of spec/42_sequencer.md R111 and spec/43_session.md R115 as one
inductive relation, row by row, and the proof that a step of an operation in progress is a row of it. -/

namespace Sys2Proof.Machine

/-- The rows of the two tables: the state before, the condition, the state after. -/
inductive SeqTransition (s : State) : State → Prop
  | waits (h : s.seqState = .idle ∨ (transacting s.seqState = true ∧ s.bus = [])) : SeqTransition s s
  | openSent (rest : List BusAnswer) (hq : s.seqState = .openSend) (hb : s.bus = .ok :: rest) :
    SeqTransition s { record (.send busAddr cmdInit .ok) (answered s) with seqState := .openWait }
  | openFailed (rest : List BusAnswer) (hq : s.seqState = .openSend) (hb : s.bus = .err :: rest) :
    SeqTransition s (failWith .initError (record (.send busAddr cmdInit .err) (answered s)))
  | opened (hq : s.seqState = .openWait) :
    SeqTransition s (doneWith 0#40 { delay s.cfg.tInitMs s with sessionOpen := true })
  | initSent (rest : List BusAnswer) (hq : s.seqState = .initSend) (hb : s.bus = .ok :: rest) :
    SeqTransition s { record (.send busAddr cmdInit .ok) (answered s) with seqState := .initWait }
  | initFailed (rest : List BusAnswer) (hq : s.seqState = .initSend) (hb : s.bus = .err :: rest) :
    SeqTransition s (failWith .transportError (record (.send busAddr cmdInit .err) (answered s)))
  | initWaited (hq : s.seqState = .initWait) :
    SeqTransition s { delay s.cfg.tInitMs s with seqState := .trigSend }
  | trigSent (rest : List BusAnswer) (hq : s.seqState = .trigSend) (hb : s.bus = .ok :: rest) :
    SeqTransition s { record (.send busAddr cmdTrig .ok) (answered s) with seqState := .settleWait }
  | trigFailed (rest : List BusAnswer) (hq : s.seqState = .trigSend) (hb : s.bus = .err :: rest) :
    SeqTransition s (failWith .transportError (record (.send busAddr cmdTrig .err) (answered s)))
  | settled (hq : s.seqState = .settleWait) :
    SeqTransition s { delay s.cfg.tSettleMs s with attempt := 1#4, seqState := .pollRecv }
  | recvBusy (f : Frame) (rest : List BusAnswer) (hq : s.seqState = .pollRecv)
      (hb : s.bus = .okFrame f :: rest) (hf : frameBusy f = true) :
    SeqTransition s
      { record (.recv busAddr frameLen (.ok f)) (answered s) with frame := f, seqState := .pollWait }
  | recvReady (f : Frame) (rest : List BusAnswer) (hq : s.seqState = .pollRecv)
      (hb : s.bus = .okFrame f :: rest) (hf : frameBusy f = false) :
    SeqTransition s
      { record (.recv busAddr frameLen (.ok f)) (answered s) with frame := f, seqState := .validate }
  | recvShort (k : Fin 7) (rest : List BusAnswer) (hq : s.seqState = .pollRecv)
      (hb : s.bus = .short k :: rest) :
    SeqTransition s
      (failWith .transportError (record (.recv busAddr frameLen (.short k)) (answered s)))
  | recvFailed (rest : List BusAnswer) (hq : s.seqState = .pollRecv) (hb : s.bus = .err :: rest) :
    SeqTransition s (failWith .transportError (record (.recv busAddr frameLen .err) (answered s)))
  | retried (hq : s.seqState = .pollWait) (ha : s.attempt ≠ nPoll) :
    SeqTransition s { delay tPollMs s with attempt := s.attempt + 1#4, seqState := .pollRecv }
  | exhausted (hq : s.seqState = .pollWait) (ha : s.attempt = nPoll) :
    SeqTransition s (failWith .sensorBusyError (delay tPollMs s))
  | crcRight (hq : s.seqState = .validate) (hc : crc8 (frameChecked s.frame) = frameByte s.frame 6) :
    SeqTransition s { s with crcAcc := crc8 (frameChecked s.frame), seqState := .decode }
  | crcWrong (hq : s.seqState = .validate) (hc : crc8 (frameChecked s.frame) ≠ frameByte s.frame 6) :
    SeqTransition s (failWith .integrityError { s with crcAcc := crc8 (frameChecked s.frame) })
  | decoded (hq : s.seqState = .decode) : SeqTransition s (doneWith (frameMeasurement s.frame) s)

/-- A step of the sequencer that answers a next state is a row of the tables. -/
theorem seqStep_transition {s t : State} (h : seqStep s = .next t) : SeqTransition s t := by
  cases hq : s.seqState <;> simp only [seqStep, hq] at h
  case idle => cases h; exact .waits (.inl hq)
  case openSend =>
    rcases busSend_next h with ⟨hb, rfl⟩ | ⟨rest, hb, rfl⟩ | ⟨rest, hb, rfl⟩
    · exact .waits (.inr ⟨by rw [hq]; rfl, hb⟩)
    · simpa [initAnswered, hq, openReact] using SeqTransition.openSent rest hq hb
    · simpa [initAnswered, hq, openReact] using SeqTransition.openFailed rest hq hb
  case openWait => cases h; exact .opened hq
  case initSend =>
    rcases busSend_next h with ⟨hb, rfl⟩ | ⟨rest, hb, rfl⟩ | ⟨rest, hb, rfl⟩
    · exact .waits (.inr ⟨by rw [hq]; rfl, hb⟩)
    · simpa [initAnswered, hq, initReact] using SeqTransition.initSent rest hq hb
    · simpa [initAnswered, hq, initReact] using SeqTransition.initFailed rest hq hb
  case initWait => cases h; exact .initWaited hq
  case trigSend =>
    rcases busSend_next h with ⟨hb, rfl⟩ | ⟨rest, hb, rfl⟩ | ⟨rest, hb, rfl⟩
    · exact .waits (.inr ⟨by rw [hq]; rfl, hb⟩)
    · simpa [trigAnswered, hq, trigReact] using SeqTransition.trigSent rest hq hb
    · simpa [trigAnswered, hq, trigReact] using SeqTransition.trigFailed rest hq hb
  case settleWait => cases h; exact .settled hq
  case pollRecv =>
    rcases busRecv_next h with ⟨hb, rfl⟩ | ⟨f, rest, hb, rfl⟩ | ⟨k, rest, hb, rfl⟩ | ⟨rest, hb, rfl⟩
    · exact .waits (.inr ⟨by rw [hq]; rfl, hb⟩)
    · cases hf : frameBusy f
      · simpa [recvReact, frameReceived, hf] using SeqTransition.recvReady f rest hq hb hf
      · simpa [recvReact, frameReceived, hf] using SeqTransition.recvBusy f rest hq hb hf
    · exact .recvShort k rest hq hb
    · exact .recvFailed rest hq hb
  case pollWait =>
    cases h
    by_cases ha : s.attempt = nPoll
    · simpa [nextAttempt, ha] using SeqTransition.exhausted hq ha
    · simpa [nextAttempt, ha] using SeqTransition.retried hq ha
  case validate =>
    cases h
    by_cases hc : crc8 (frameChecked s.frame) = frameByte s.frame 6
    · simpa [crcCompared, hc] using SeqTransition.crcRight hq hc
    · simpa [crcCompared, hc] using SeqTransition.crcWrong hq hc
  case decode => cases h; exact .decoded hq

/-- What a step can do, in full: the reset input, an accepted request, or a row of the tables after the
host's move. -/
theorem step_transition {s t : State} (h : step s = .next t) :
    configLegal s.cfg = true ∧
      ((resetPending s = true ∧ t = applyReset s) ∨
        (resetPending s = false ∧
          ((s.seqState = .idle ∧ ∃ r, (hostTurn s).port = some r ∧
              exec (decodeRequest r) { hostTurn s with port := none } = .next t) ∨
            ((s.seqState ≠ .idle ∨ (hostTurn s).port = none) ∧ SeqTransition (hostTurn s) t)))) := by
  obtain ⟨hc, ⟨hr, rfl⟩ | ⟨hr, h⟩⟩ := step_next h
  · exact ⟨hc, .inl ⟨hr, rfl⟩⟩
  · refine ⟨hc, .inr ⟨hr, ?_⟩⟩
    rcases coreStep_next h with ⟨hq, hp, rfl⟩ | ⟨hq, r, hp, h⟩ | ⟨hq, h⟩
    · exact .inr ⟨.inr hp, .waits (.inl hq)⟩
    · exact .inl ⟨by simpa using hq, r, hp, h⟩
    · exact .inr ⟨.inl (by simpa using hq), seqStep_transition h⟩

end Sys2Proof.Machine
end

