-- ==== Sys2Proof/Tests/Slice0.lean ====
section
/-! SUPPORT. Tests on numbers taken from spec/, and one witness for every statement with hypotheses. -/

namespace Sys2Proof.Tests

open Sys2Proof Sys2Proof.Machine
open Host (Outcome)

/-! ## Small states and the frames of spec/95_test_vectors.md -/

/-- A core with a session open, standing in `q`. -/
def standing (q : SeqState) : State := { State.reset with sessionOpen := true, seqState := q }

/-- The same with the answers `bus` still to come. -/
def facing (q : SeqState) (bus : List BusAnswer) : State := { standing q with bus := bus }

/-- An idle core with a request at the port. -/
def asked (op : BitVec 4) (arg : BitVec 48) (s : State) : State := { s with port := some ⟨op, arg⟩ }

/-- A core that initialises at every `READ`. -/
def everyRead (s : State) : State :=
  { s with cfg := { tSettleMs := 75, tInitMs := 20, policy := .everyRead } }

/-- `F_ROOM`. -/
def fRoom : Frame :=
  { b0 := 0x18#8, b1 := 0x73#8, b2 := 0xF7#8, b3 := 0xD5#8, b4 := 0xDF#8, b5 := 0x3B#8, b6 := 0x61#8 }

/-- `F_BAD`. -/
def fBad : Frame :=
  { b0 := 0x18#8, b1 := 0x73#8, b2 := 0xF7#8, b3 := 0xD5#8, b4 := 0xDF#8, b5 := 0x3B#8, b6 := 0x60#8 }

/-- `F_BUSY`. -/
def fBusy : Frame :=
  { b0 := 0x98#8, b1 := 0x00#8, b2 := 0x00#8, b3 := 0x00#8, b4 := 0x00#8, b5 := 0x00#8, b6 := 0xD9#8 }

/-- The boundary of the BUSY test from below and from above: only bit 7 counts. -/
def fNotBusy : Frame := { Frame.zero with b0 := 0x7F#8 }

/-- See `fNotBusy`. -/
def fJustBusy : Frame := { Frame.zero with b0 := 0x80#8 }

/-- What an outcome leaves in a field. -/
def after {α : Type} (f : State → α) (r : Result) : Option α := (nextState r).map f

/-- The response registers of an outcome: valid, code, data. -/
def response (r : Result) : Option (Bool × BitVec 3 × BitVec 40) :=
  after (fun s => (s.rspValid, s.rspCode, s.rspData)) r

/-! ## WellFormed -/

/-- The one check of `Instr.wellFormed`: 0x7 is no opcode of the row `RESERVED.8_F`. -/
theorem test_wellFormed_refuses_low_opcode : (Instr.reserved8F 0x7#4).wellFormed = false := by decide

theorem test_wellFormed_accepts_bounds :
    (Instr.reserved8F 0x8#4).wellFormed = true ∧ (Instr.reserved8F 0xF#4).wellFormed = true := by decide

/-! ## Decoding, by words of the spec -/

/-- `CRC.*` (V40.4): argument bits that are not used are ignored. -/
theorem test_decode_crc :
    decodeTableWord 52 0x0000000000000 = some .crcClear ∧
    decodeTableWord 52 0x0FFFFFFFFFFFF = some .crcClear ∧
    decodeTableWord 52 0x1ABCDEF0123BE = some (.crcUpdate 0xBE#8) := by decide

/-- `UNPACK` and `SCALE` (V41.1, V41.2), the last with unused bits set. -/
theorem test_decode_fields :
    decodeTableWord 52 0x2123456789ABC =
      some (.unpack 0x12#8 0x34#8 0x56#8 0x78#8 0x9A#8 0xBC#8) ∧
    decodeTableWord 52 0x300028F50147A = some (.scale 10485#20 5242#20) ∧
    decodeTableWord 52 0x3FF0000100001 = some (.scale 1#20 1#20) := by decide

/-- The session operations, `READ` and the reserved opcodes (V43). -/
theorem test_decode_session :
    decodeTableWord 52 0x4000000000000 = some .openSession ∧
    decodeTableWord 52 0x5000000000000 = some .readMeasurement ∧
    decodeTableWord 52 0x6000000000000 = some .closeSession ∧
    decodeTableWord 52 0x7000000000000 = some .reserved7 ∧
    decodeTableWord 52 0x9123456789ABC = some (.reserved8F 0x9#4) ∧
    decodeTableWord 52 0xFFFFFFFFFFFFF = some (.reserved8F 0xF#4) := by decide

/-- The wire commands bit by bit (R54), and neighbours that are none. -/
theorem test_decode_wire :
    decodeTableWord 24 0b101111100000100000000000 = some .init ∧
    decodeTableWord 24 0b101011000011001100000000 = some .trig ∧
    decodeTableWord 8 0b10111010 = some .srst ∧
    decodeTableWord 24 0xBE0801 = none ∧ decodeTableWord 8 0xBE = none ∧
    decodeTableWord 24 0x0000BA = none := by decide

/-- The encoder writes the words of R67. -/
theorem test_encode :
    encode .readMeasurement = .request (Request.ofWord 0x5000000000000#52) ∧
    encode (.crcUpdate 0xBE#8) = .request (Request.ofWord 0x10000000000BE#52) ∧
    encode (.unpack 0x19#8 0x9A#8 0x2C#8 0x66#8 0x66#8 0x39#8) =
      .request (Request.ofWord 0x2199A2C666639#52) ∧
    encode (.scale 104866#20 812646#20) = .request (Request.ofWord 0x300199A2C6666#52) := by decide

/-! ## The functions, by the tables of the spec -/

/-- V40.1 and V40.2. -/
theorem test_crc8_steps :
    crc8Bit 0x80#8 = 0x31#8 ∧ crc8Bit 0x7F#8 = 0xFE#8 ∧ crc8Bit 0xFF#8 = 0xCF#8 ∧
    crc8Byte 0x00#8 0x01#8 = 0x31#8 ∧ crc8Byte 0x00#8 0xFE#8 = 0x9D#8 := by decide

/-- V40.3: six zero bytes, `0xBE, 0xEF`, "123456789", the data of `F_DOC`. -/
theorem test_crc8_sequences :
    crc8 [0x00#8, 0x00#8, 0x00#8, 0x00#8, 0x00#8, 0x00#8] = 0x6A#8 ∧
    crc8 [0xBE#8, 0xEF#8] = 0x92#8 ∧
    crc8 [0x31#8, 0x32#8, 0x33#8, 0x34#8, 0x35#8, 0x36#8, 0x37#8, 0x38#8, 0x39#8] = 0xF7#8 ∧
    crc8 [0x00#8, 0x19#8, 0x9A#8, 0x2C#8, 0x66#8, 0x66#8] = 0x39#8 := by decide +kernel

/-- S6: the packed layout. -/
theorem test_pack :
    packRaws 0xABCDE#20 0xF0123#20 = (0xAB#8, 0xCD#8, 0xEF#8, 0x01#8, 0x23#8) := by decide

/-! ## One step of each instruction -/

/-- V40.4. -/
theorem test_crcClear :
    after State.crcAcc (exec .crcClear { State.reset with crcAcc := 0x0C#8 }) = some 0xFF#8 ∧
    response (exec .crcClear State.reset) = some (true, 0#3, 0xFF#40) := by decide

/-- V40.4, the first two rows. -/
theorem test_crcUpdate :
    response (exec (.crcUpdate 0x00#8) State.reset) = some (true, 0#3, 0xAC#40) ∧
    after State.crcAcc (exec (.crcUpdate 0xAC#8) { State.reset with crcAcc := 0xAC#8 }) = some 0x00#8 := by
  decide

/-- P6: the update continues from what a `READ` left. -/
theorem test_crcUpdate_shared :
    response (exec (.crcUpdate 0xEF#8) { State.reset with crcAcc := 0x61#8 }) = some (true, 0#3, 0x65#40) := by
  decide

/-- V41.1: the nibbles of the shared byte go to their two fields. -/
theorem test_unpack :
    response (exec (.unpack 0x12#8 0x34#8 0x56#8 0x78#8 0x9A#8 0xBC#8) State.reset) =
      some (true, 0#3, 0x123456789A#40) ∧
    response (exec (.unpack 0x00#8 0x00#8 0x0F#8 0x00#8 0x00#8 0xFF#8) State.reset) =
      some (true, 0#3, 0x00000F0000#40) := by decide

/-- V41.2: the edges of a percent and of a degree. -/
theorem test_scale :
    response (exec (.scale 10485#20 5242#20) State.reset) = some (true, 0#3, 0x000000FFCE#40) ∧
    response (exec (.scale 10486#20 5243#20) State.reset) = some (true, 0#3, 0x000001FFCF#40) := by decide

/-- V41.2: a negative temperature is truncated before the 50 is subtracted, and the largest values. -/
theorem test_scale_negative :
    response (exec (.scale 838860#20 207093#20) State.reset) = some (true, 0#3, 0x00004FFFF5#40) ∧
    response (exec (.scale 1048575#20 1048575#20) State.reset) = some (true, 0#3, 0x0000630095#40) := by
  decide

/-- V43.1, V43.4. -/
theorem test_openSession :
    after State.seqState (exec .openSession State.reset) = some .openSend ∧
    response (exec .openSession (standing .idle)) = some (true, 7#3, 0#40) := by decide

/-- V43.7 and P2. -/
theorem test_readMeasurement :
    response (exec .readMeasurement State.reset) = some (true, 7#3, 0#40) ∧
    after State.seqState (exec .readMeasurement (standing .idle)) = some .trigSend ∧
    after State.seqState (exec .readMeasurement (everyRead (standing .idle))) = some .initSend := by decide

/-- V43.5, V43.6. -/
theorem test_closeSession :
    after State.sessionOpen (exec .closeSession (standing .idle)) = some false ∧
    response (exec .closeSession State.reset) = some (true, 7#3, 0#40) := by decide

/-- V43.8, V43.9. -/
theorem test_reserved :
    response (exec .reserved7 State.reset) = some (true, 7#3, 0#40) ∧
    response (exec (.reserved8F 0xF#4) (standing .idle)) = some (true, 7#3, 0#40) := by decide

/-- V43.2 and V42.5: the same failure has two kinds. -/
theorem test_init :
    response (exec .init (facing .openSend [.err])) = some (true, 4#3, 0#40) ∧
    response (exec .init (facing .initSend [.err])) = some (true, 1#3, 0#40) := by decide

/-- V42.1, the first event. -/
theorem test_trig :
    after State.trace (exec .trig (facing .trigSend [.ok])) =
      some [.send 0x38#7 [0xAC#8, 0x33#8, 0x00#8] .ok] ∧
    after State.seqState (exec .trig (facing .trigSend [.ok])) = some .settleWait := by decide

/-- V44: the byte of `SRST`. -/
theorem test_srst :
    after State.trace (exec .srst (facing .idle [.ok])) = some [.send 0x38#7 [0xBA#8] .ok] := by decide

/-! ## Steps without an opcode -/

/-- S8 at `k = 9` and `k = 10`: the tenth busy frame ends the loop, after its delay. -/
theorem test_pollWait :
    after State.attempt (step { standing .pollWait with attempt := 9#4 }) = some 10#4 ∧
    response (step { standing .pollWait with attempt := 10#4 }) = some (true, 2#3, 0#40) ∧
    after State.trace (step { standing .pollWait with attempt := 10#4 }) = some [.delay 10] := by decide

/-- P5: a short receive leaves the frame and fails. -/
theorem test_pollRecv_short :
    after State.frame (step { facing .pollRecv [.short 3] with frame := fBusy }) = some fBusy ∧
    response (step (facing .pollRecv [.short 3])) = some (true, 1#3, 0#40) := by decide

/-- S9: the accumulator keeps the computed CRC, not the received one. -/
theorem test_validate :
    after State.crcAcc (step { standing .validate with frame := fBad }) = some 0x61#8 ∧
    response (step { standing .validate with frame := fBad }) = some (true, 3#3, 0#40) := by decide +kernel

/-- P2: 45 percent and 23 degrees. -/
theorem test_decode_step :
    response (step { standing .decode with frame := fRoom }) = some (true, 0#3, 0x00002D0017#40) := by decide

/-- V70.2: reset in `SETTLE_WAIT`. -/
theorem test_reset :
    step { standing .settleWait with host := [.reset] } = Outcome.next State.reset := rfl

/-- R165 on P2 and V70.3: the end state keeps the trace, an answer left over and a missing one are malformed
tests, and a request still to be presented keeps the run from being over. -/
theorem test_end_of_run :
    (endState { standing .idle with trace := [.delay 10] }).map EndState.trace = some [.delay 10] ∧
    testMalformed (facing .idle [.ok]) = true ∧ testMalformed (standing .trigSend) = true ∧
    testMalformed (facing .trigSend [.ok]) = false ∧
    runOver { standing .idle with host := [.pause, .present ⟨0x5#4, 0#48⟩] } = false := by decide

/-! ## Placing an instruction -/

theorem test_withFetchWord_request :
    response (step (State.reset.withFetchWord 52 0x1000000000000)) = some (true, 0#3, 0xAC#40) ∧
    response (step (State.reset.withFetchWord 52 0x5000000000000)) = some (true, 7#3, 0#40) := by decide

theorem test_withFetchWord_wire :
    after State.trace (step (State.reset.withFetchWord 24 0xBE0800)) =
      some [.send 0x38#7 [0xBE#8, 0x08#8, 0x00#8] .ok] ∧
    after State.trace (step (State.reset.withFetchWord 24 0xAC3300)) =
      some [.send 0x38#7 [0xAC#8, 0x33#8, 0x00#8] .ok] := by decide

/-! ## Witnesses: states and operands that meet the hypotheses of the statements -/

theorem witness_ResetInputGivesResetValues :
    configLegal { standing .pollRecv with host := [.reset] }.cfg = true ∧
    ({ standing .pollRecv with host := [.reset] } : State).host = .reset :: [] := by decide

theorem witness_OpcodeSelectsOperation : 8 ≤ (0x8#4).toNat ∧ 8 ≤ (0xF#4).toNat := by decide

theorem witness_DecodedInstructionIsWellFormed :
    decode (.request ⟨0x8#4, 0#48⟩) = .ok (.reserved8F 0x8#4) ∧ decode (.wire [0xBA#8]) = .ok .srst :=
  ⟨rfl, rfl⟩

theorem witness_DecodeOfEncodeIsIdentity : (Instr.scale 0xFFFFF#20 0#20).wellFormed = true := by decide

theorem witness_StepRunsTheDecodedInstruction :
    (configLegal (asked 0x0#4 0#48 State.reset).cfg = true ∧
      resetPending (asked 0x0#4 0#48 State.reset) = false ∧
      (hostTurn (asked 0x0#4 0#48 State.reset)).seqState = .idle ∧
      (hostTurn (asked 0x0#4 0#48 State.reset)).port = some ⟨0x0#4, 0#48⟩ ∧
      (decode (.request ⟨0x0#4, 0#48⟩)).toOption = some .crcClear) ∧
    (hostTurn (standing .openSend)).seqState = .openSend ∧
    (hostTurn (standing .initSend)).seqState = .initSend ∧
    (hostTurn (standing .trigSend)).seqState = .trigSend := by decide

theorem witness_StepMakesTheOperationsStep :
    (configLegal (standing .openWait).cfg = true ∧ resetPending (standing .openWait) = false ∧
      fetch (hostTurn (standing .openWait)) = none) ∧
    (fetch (hostTurn (standing .idle)) = none ∧ (hostTurn (standing .idle)).seqState = .idle) := by decide

theorem witness_IllegalConfigurationIsRefused :
    ({ State.reset with cfg := { Config.default with tSettleMs := 74 } } : State).cfg.tSettleMs < 75 ∧
    ({ State.reset with cfg := { Config.default with tInitMs := 9 } } : State).cfg.tInitMs < 10 := by decide

/-- A state of each kind: with a next state, and with the fault (an `ok` without bytes to a receive). -/
theorem witness_StepStopsOnlyOnMalformedScript :
    configLegal (facing .pollRecv [.ok]).cfg = true ∧ resetPending (facing .pollRecv [.ok]) = false ∧
    transacting (facing .pollRecv [.ok]).seqState = true ∧ answerFits .pollRecv .ok = false ∧
    answerFits .trigSend (.short 0) = false ∧ answerFits .pollRecv (.short 0) = true := by decide

theorem witness_BusyCoreLeavesRequestWaiting :
    ∃ t, (asked 0x6#4 0#48 (standing .settleWait)).seqState ≠ .idle ∧
      (asked 0x6#4 0#48 (standing .settleWait)).host = [] ∧
      (asked 0x6#4 0#48 (standing .settleWait)).port = some ⟨0x6#4, 0#48⟩ ∧
      step (asked 0x6#4 0#48 (standing .settleWait)) = Outcome.next t :=
  ⟨_, by decide, rfl, rfl, rfl⟩

theorem witness_HostRequestNotAcceptedWhileBusy : (standing .openWait).seqState ≠ .idle := by decide

theorem witness_UnansweredTransactionNeverEnds :
    configLegal (standing .trigSend).cfg = true ∧ transacting (standing .trigSend).seqState = true ∧
    (standing .trigSend).bus = [] ∧ (standing .trigSend).host = [] := by decide

/-- One step for each of the four cases: no event, a delay, a send, a receive, the two last with each answer. -/
theorem witness_OneEventPerStep :
    (∃ t, step (standing .validate) = Outcome.next t) ∧
    (∃ t, step (standing .initWait) = Outcome.next t) ∧
    (∃ t, step (facing .trigSend [.ok]) = Outcome.next t) ∧
    (∃ t, step (facing .initSend [.err]) = Outcome.next t) ∧
    (∃ t, step (facing .pollRecv [.okFrame fJustBusy]) = Outcome.next t) ∧
    (∃ t, step (facing .pollRecv [.short 6]) = Outcome.next t) ∧
    (∃ t, step (facing .pollRecv [.err]) = Outcome.next t) :=
  ⟨⟨_, rfl⟩, ⟨_, rfl⟩, ⟨_, rfl⟩, ⟨_, rfl⟩, ⟨_, rfl⟩, ⟨_, rfl⟩, ⟨_, rfl⟩⟩

theorem witness_RefusedRequestsOnlyRespond :
    (State.reset.seqState = .idle ∧ State.reset.sessionOpen = false) ∧
    ((standing .idle).seqState = .idle ∧ (standing .idle).sessionOpen = true) ∧
    7 ≤ (Request.mk 0x7#4 0#48).op.toNat ∧ 7 ≤ (Request.mk 0xF#4 0#48).op.toNat := by decide

/-- For `CrcClearResult`, `CrcUpdateResult`, `CrcRequestsComputeCrc8`, `UnpackResult`, `ScaleResult` and
`MeasurementPayloadReadsBack`. -/
theorem witness_idle_core : State.reset.seqState = .idle ∧ (standing .idle).seqState = .idle := by decide

theorem witness_CrcProperties :
    [0x00#8].length = [0xFF#8].length ∧ crc8Bit 0x80#8 = crc8Bit 0x80#8 ∧
    crc8Byte 0xFF#8 0x00#8 = crc8Byte 0xFF#8 0x00#8 := by decide

theorem witness_ScaleRangesAndMonotony :
    (10485#20).toNat ≤ (10486#20).toNat ∧ (0#20).toNat ≤ (1048575#20).toNat := by decide

/-- For `OpenAcceptance` and `CloseResult`, and the busy core of `CloseResult` and `ReadAcceptance`. -/
theorem witness_OpenAcceptance_CloseResult :
    (State.reset.seqState = .idle ∧ State.reset.sessionOpen = false) ∧
    ((standing .idle).seqState = .idle ∧ (standing .idle).sessionOpen = true) ∧
    (standing .pollWait).seqState ≠ .idle := by decide

theorem witness_InitCommandResult :
    ((facing .openSend [.ok]).seqState = .openSend ∧ (facing .openSend [.ok]).bus = .ok :: []) ∧
    ((facing .openSend [.err]).seqState = .openSend ∧ (facing .openSend [.err]).bus = .err :: []) ∧
    ((facing .initSend [.ok]).seqState = .initSend ∧ (facing .initSend [.ok]).bus = .ok :: []) ∧
    ((facing .initSend [.err]).seqState = .initSend ∧ (facing .initSend [.err]).bus = .err :: []) := by decide

theorem witness_TrigCommandResult :
    ((facing .trigSend [.ok]).seqState = .trigSend ∧ (facing .trigSend [.ok]).bus = .ok :: []) ∧
    ((facing .trigSend [.err]).seqState = .trigSend ∧ (facing .trigSend [.err]).bus = .err :: []) := by decide

theorem witness_SoftResetIsABareSendNoStepMakes :
    (facing .idle [.ok]).bus = .ok :: [] ∧ (facing .idle [.err]).bus = .err :: [] ∧
    ∃ t, step { facing .trigSend [.ok] with trace := [.send 0x38#7 [0xBA#8] .ok] } = Outcome.next t ∧
      Event.send 0x38#7 [0xBA#8] .ok ∈ t.trace :=
  ⟨rfl, rfl, _, rfl, by decide⟩

theorem witness_OpenRunsToItsResponse :
    (configLegal (asked 0x4#4 0#48 State.reset).cfg = true ∧
      (asked 0x4#4 0#48 State.reset).seqState = .idle ∧ (asked 0x4#4 0#48 State.reset).host = [] ∧
      (asked 0x4#4 0#48 State.reset).port = some ⟨0x4#4, 0#48⟩) ∧
    (asked 0x4#4 0#48 (standing .idle)).sessionOpen = true ∧
    ((asked 0x4#4 0#48 { State.reset with bus := [.ok] }).sessionOpen = false ∧
      (asked 0x4#4 0#48 { State.reset with bus := [.ok] }).bus = .ok :: []) ∧
    ((asked 0x4#4 0#48 { State.reset with bus := [.err] }).sessionOpen = false ∧
      (asked 0x4#4 0#48 { State.reset with bus := [.err] }).bus = .err :: []) := by decide

theorem witness_ReadAcceptance :
    (State.reset.seqState = .idle ∧ State.reset.sessionOpen = false) ∧
    ((everyRead (standing .idle)).seqState = .idle ∧ (everyRead (standing .idle)).sessionOpen = true ∧
      (everyRead (standing .idle)).cfg.policy = .everyRead) ∧
    ((standing .idle).sessionOpen = true ∧ (standing .idle).cfg.policy = .onceAtOpen) := by decide

theorem witness_InitAndSettleDelays :
    (standing .initWait).seqState = .initWait ∧ (standing .settleWait).seqState = .settleWait := by decide

theorem witness_PollReceiveResult :
    (facing .pollRecv [.okFrame fNotBusy]).seqState = .pollRecv ∧
    ((facing .pollRecv [.okFrame fNotBusy]).bus = .okFrame fNotBusy :: [] ∧ fNotBusy.b0.toNat < 128) ∧
    ((facing .pollRecv [.okFrame fJustBusy]).bus = .okFrame fJustBusy :: [] ∧ 128 ≤ fJustBusy.b0.toNat) ∧
    (facing .pollRecv [.short 0]).bus = .short 0 :: [] ∧ (facing .pollRecv [.short 6]).bus = .short 6 :: [] ∧
    (facing .pollRecv [.err]).bus = .err :: [] := by decide

theorem witness_PollWaitResult :
    (standing .pollWait).seqState = .pollWait ∧
    ({ standing .pollWait with attempt := 9#4 } : State).attempt.toNat < 10 ∧
    ({ standing .pollWait with attempt := 10#4 } : State).attempt.toNat = 10 := by decide

theorem witness_ValidateResult :
    (standing .validate).seqState = .validate ∧
    crc8 [fRoom.b0, fRoom.b1, fRoom.b2, fRoom.b3, fRoom.b4, fRoom.b5] = fRoom.b6 ∧
    crc8 [fBad.b0, fBad.b1, fBad.b2, fBad.b3, fBad.b4, fBad.b5] ≠ fBad.b6 := by decide +kernel

theorem witness_DecodeStepResult :
    (standing .decode).seqState = .decode ∧
    unpackRaws fRoom.b1 fRoom.b2 fRoom.b3 fRoom.b4 fRoom.b5 fRoom.b6 = (0x73F7D#20, 0x5DF3B#20) ∧
    scaleRaws 0x73F7D#20 0x5DF3B#20 = (45, 23) := by decide

/-- An answered and an unanswered step, and an idle core that stays idle. -/
theorem witness_NoOtherTransition :
    (∃ t, coreStep (facing .pollRecv [.okFrame fJustBusy]) = Outcome.next t) ∧
    (∃ t, coreStep (standing .pollRecv) = Outcome.next t) ∧
    (∃ t, coreStep (asked 0x7#4 0#48 State.reset) = Outcome.next t) := ⟨⟨_, rfl⟩, ⟨_, rfl⟩, ⟨_, rfl⟩⟩

/-- Every instruction of the frame, on an idle core. -/
theorem witness_OneStepRequestFrame :
    (∃ t, exec .crcClear State.reset = Outcome.next t) ∧
    (∃ t, exec (.crcUpdate 0xFF#8) State.reset = Outcome.next t) ∧
    (∃ t, exec (.unpack 0#8 0#8 0#8 0#8 0#8 0#8) State.reset = Outcome.next t) ∧
    (∃ t, exec (.scale 0#20 0#20) State.reset = Outcome.next t) ∧
    (∃ t, exec .closeSession (standing .idle) = Outcome.next t) ∧
    (∃ t, exec .reserved7 State.reset = Outcome.next t) ∧
    (∃ t, exec (.reserved8F 0x8#4) State.reset = Outcome.next t) :=
  ⟨⟨_, rfl⟩, ⟨_, rfl⟩, ⟨_, rfl⟩, ⟨_, rfl⟩, ⟨_, rfl⟩, ⟨_, rfl⟩, ⟨_, rfl⟩⟩

/-- Accepted, and not accepted. -/
theorem witness_AcceptanceFrame :
    (∃ t, exec .openSession State.reset = Outcome.next t ∧ t.rspValid = false) ∧
    (∃ t, exec .readMeasurement (standing .pollWait) = Outcome.next t ∧ (standing .pollWait).seqState ≠ .idle) :=
  ⟨⟨_, rfl, rfl⟩, ⟨_, rfl, by decide⟩⟩

theorem witness_WireCommandFrame :
    (∃ t, exec .init (facing .openSend [.ok]) = Outcome.next t ∧
      (facing .openSend [.ok]).bus.head? ≠ some .err) ∧
    (∃ t, exec .trig (facing .trigSend [.err]) = Outcome.next t) ∧
    (∃ t, exec .srst (standing .idle) = Outcome.next t) := ⟨⟨_, rfl, by decide⟩, ⟨_, rfl⟩, ⟨_, rfl⟩⟩

theorem witness_FrameWrittenOnlyByWholeReceive :
    ∃ t, step (facing .pollRecv [.okFrame fRoom]) = Outcome.next t ∧
      resetPending (facing .pollRecv [.okFrame fRoom]) = false := ⟨_, rfl, rfl⟩

theorem witness_AccumulatorWriters :
    ∃ t, step { standing .validate with frame := fRoom } = Outcome.next t ∧
      resetPending { standing .validate with frame := fRoom } = false ∧
      ({ standing .validate with frame := fRoom } : State).seqState = .validate := ⟨_, rfl, rfl, rfl⟩

/-- `OPEN` completing, `CLOSE`, and a step of a `READ`. -/
theorem witness_SessionOpenWriters :
    (∃ t, step { standing .openWait with sessionOpen := false } = Outcome.next t ∧ t.sessionOpen = true) ∧
    (∃ t, step (asked 0x6#4 0#48 (standing .idle)) = Outcome.next t ∧ t.sessionOpen = false) ∧
    (∃ t, step (standing .settleWait) = Outcome.next t ∧ reading (standing .settleWait).seqState = true ∧
      resetPending (standing .settleWait) = false) := ⟨⟨_, rfl, rfl⟩, ⟨_, rfl, rfl⟩, ⟨_, rfl, rfl, rfl⟩⟩

/-- Steps that change the response, that set `RSP_VALID` only, and that clear it. -/
theorem witness_ResponseWriters :
    (∃ t, step (asked 0x0#4 0#48 State.reset) = Outcome.next t ∧
      resetPending (asked 0x0#4 0#48 State.reset) = false ∧ t.rspData ≠ State.reset.rspData) ∧
    (∃ t, step (standing .openWait) = Outcome.next t ∧ (standing .openWait).rspValid = false ∧
      t.rspValid = true ∧ t.rspCode = (standing .openWait).rspCode) ∧
    (∃ t, step (asked 0x5#4 0#48 { standing .idle with rspValid := true }) = Outcome.next t ∧
      t.rspValid = false) := ⟨⟨_, rfl, rfl, by decide⟩, ⟨_, rfl, rfl, rfl, rfl⟩, ⟨_, rfl, rfl⟩⟩

/-- A core whose newest event is the receive of the frame it holds. -/
def holding (q : SeqState) (f : Frame) (crc : Byte) : State :=
  { standing q with frame := f, crcAcc := crc, trace := [.recv 0x38#7 7 (.ok f)] }

/-- A `READ` about to answer its measurement, and one about to fail. -/
theorem witness_MeasurementOnlyFromCheckedFrame :
    (MachineInv (holding .decode fRoom 0x61#8) ∧ reading (holding .decode fRoom 0x61#8).seqState = true ∧
      resetPending (holding .decode fRoom 0x61#8) = false ∧
      ∃ t, step (holding .decode fRoom 0x61#8) = Outcome.next t ∧ t.rspValid = true) ∧
    (MachineInv (holding .validate fBad 0xFF#8) ∧ reading (holding .validate fBad 0xFF#8).seqState = true ∧
      resetPending (holding .validate fBad 0xFF#8) = false ∧
      ∃ t, step (holding .validate fBad 0xFF#8) = Outcome.next t ∧ t.rspValid = true) :=
  ⟨⟨by decide +kernel, rfl, rfl, _, rfl, by decide⟩, ⟨by decide +kernel, rfl, rfl, _, rfl, by decide +kernel⟩⟩

theorem witness_StepKeepsInvariant :
    ∃ t, MachineInv { facing .pollRecv [.okFrame fBusy] with attempt := 10#4 } ∧
      step { facing .pollRecv [.okFrame fBusy] with attempt := 10#4 } = Outcome.next t :=
  ⟨_, by decide, rfl⟩

theorem witness_StepKeepsReceiveSpacing :
    ∃ t, SpacingInv { facing .pollRecv [.err] with
        trace := [.send 0x38#7 [0xAC#8, 0x33#8, 0x00#8] .ok, .delay 75] } ∧
      step { facing .pollRecv [.err] with
        trace := [.send 0x38#7 [0xAC#8, 0x33#8, 0x00#8] .ok, .delay 75] } = Outcome.next t :=
  ⟨_, by decide, rfl⟩

theorem witness_ReadStepsRefinePseudocode :
    ∃ t, configLegal (asked 0x5#4 0#48 (facing .idle [.ok, .okFrame fRoom])).cfg = true ∧
      (asked 0x5#4 0#48 (facing .idle [.ok, .okFrame fRoom])).seqState = .idle ∧
      (asked 0x5#4 0#48 (facing .idle [.ok, .okFrame fRoom])).host = [] ∧
      (asked 0x5#4 0#48 (facing .idle [.ok, .okFrame fRoom])).port = some ⟨0x5#4, 0#48⟩ ∧
      readPseudocode { asked 0x5#4 0#48 (facing .idle [.ok, .okFrame fRoom]) with port := none } = some t ∧
      t.rspData = 0x2D0017#40 :=
  ⟨_, rfl, rfl, rfl, rfl, rfl, by decide +kernel⟩

/-- A core asked for a `READ`, with answers for a polling loop of nine busy frames and a ready one. -/
def nineBusy : State :=
  asked 0x5#4 0#48 (facing .idle
    ([.ok] ++ (List.replicate 9 fBusy).map BusAnswer.okFrame ++ .okFrame fRoom :: []))

/-- The same under `EVERY_READ` with ten busy frames, and an eleventh answer that is never asked for. -/
def tenBusy : State :=
  asked 0x5#4 0#48 (everyRead (facing .idle
    ([.ok, .ok] ++ (List.replicate 10 fJustBusy).map BusAnswer.okFrame ++ [.err])))

/-- Both clauses, at nine busy frames under `ONCE_AT_OPEN` and at ten under `EVERY_READ`. -/
theorem witness_BusyFramesDecidePolling :
    (configLegal nineBusy.cfg = true ∧ nineBusy.seqState = .idle ∧ nineBusy.sessionOpen = true ∧
      nineBusy.host = [] ∧ nineBusy.port = some ⟨0x5#4, 0#48⟩ ∧
      (∀ f ∈ List.replicate 9 fBusy, 128 ≤ f.b0.toNat) ∧ nineBusy.cfg.policy = .onceAtOpen ∧
      (List.replicate 9 fBusy).length ≤ 9 ∧ fRoom.b0.toNat < 128 ∧
      nineBusy.bus = [.ok] ++ (List.replicate 9 fBusy).map BusAnswer.okFrame ++ .okFrame fRoom :: []) ∧
    (configLegal tenBusy.cfg = true ∧ tenBusy.seqState = .idle ∧ tenBusy.sessionOpen = true ∧
      tenBusy.host = [] ∧ tenBusy.port = some ⟨0x5#4, 0#48⟩ ∧
      (∀ f ∈ List.replicate 10 fJustBusy, 128 ≤ f.b0.toNat) ∧ tenBusy.cfg.policy = .everyRead ∧
      (List.replicate 10 fJustBusy).length = 10 ∧
      tenBusy.bus = [.ok, .ok] ++ (List.replicate 10 fJustBusy).map BusAnswer.okFrame ++ [.err]) :=
  ⟨⟨rfl, rfl, rfl, rfl, rfl, by decide, rfl, by decide, by decide, rfl⟩,
    rfl, rfl, rfl, rfl, rfl, by decide, rfl, rfl, rfl⟩

/-- A step that lowers the bound and one that waits. -/
theorem witness_AnsweredStepsTerminate :
    (∃ t, AttemptInv { standing .pollWait with attempt := 10#4 } ∧ (standing .pollWait).seqState ≠ .idle ∧
      step { standing .pollWait with attempt := 10#4 } = Outcome.next t) ∧
    (∃ t, AttemptInv (standing .initSend) ∧ step (standing .initSend) = Outcome.next t) :=
  ⟨⟨_, by decide, by decide, rfl⟩, ⟨_, by decide, rfl⟩⟩

/-- Two cores that differ in the leftovers only. -/
theorem witness_ReadIndependentOfLeftovers :
    ∃ s t : State, s.seqState = .idle ∧ t.seqState = .idle ∧ s.host = [] ∧ t.host = [] ∧
      s.port = some ⟨0x5#4, 0#48⟩ ∧ t.port = s.port ∧ t.cfg = s.cfg ∧ t.sessionOpen = s.sessionOpen ∧
      t.bus = s.bus ∧ t.trace = s.trace ∧ s.frame ≠ t.frame ∧ s.crcAcc ≠ t.crcAcc :=
  ⟨asked 0x5#4 0#48 (facing .idle [.ok, .okFrame fRoom]),
    asked 0x5#4 0#48 { facing .idle [.ok, .okFrame fRoom] with
      frame := fBusy, attempt := 7#4, crcAcc := 0x00#8, rspValid := true, rspCode := 3#3 },
    by decide⟩

/-- A complete test, a test with an answer left over, and one that has run out of answers. -/
theorem witness_RunStandsStillOnlyAtItsEnd :
    (configLegal (standing .idle).cfg = true ∧ (standing .idle).host = [] ∧
      testComplete (standing .idle) = true) ∧
    (configLegal (facing .idle [.ok]).cfg = true ∧ (facing .idle [.ok]).host = [] ∧
      answersLeftOver (facing .idle [.ok]) = true) ∧
    (configLegal (standing .trigSend).cfg = true ∧ (standing .trigSend).host = [] ∧
      answersRunOut (standing .trigSend) = true) := by decide

end Sys2Proof.Tests
end

section
/-! Proofs of the family 00_scope.md: the legal range of a configuration (R6). -/

namespace Sys2Proof.Machine

/-- R6, read from the other side: what makes a configuration illegal. -/
theorem configLegal_eq_false_iff (c : Config) :
    configLegal c = false ↔ c.tSettleMs < 75 ∨ c.tInitMs < 10 := by
  simp only [configLegal, Bool.and_eq_false_iff, decide_eq_false_iff_not, Nat.not_le]

/-- The configuration is looked at before the host's move and before the core's own step. -/
theorem step_of_configLegal_eq_false {s : State} (hc : configLegal s.cfg = false) :
    step s = .refused .illegalConfiguration := by
  simp only [step, hc]

/-- Settles O12: a bound of R6 that is violated makes the configuration illegal, and a step refuses an
illegal configuration before anything else. -/
theorem illegalConfigurationIsRefused : Obligations.IllegalConfigurationIsRefused :=
  fun s hOut => step_of_configLegal_eq_false ((configLegal_eq_false_iff s.cfg).mpr hOut)

end Sys2Proof.Machine
end

section
/-! Proofs of the family 10_state.md: which instruction a step runs (R17) and which steps write each
register (R14, R15, R21 to R23). -/

namespace Sys2Proof.Machine

/-! ## What a step runs -/

/-- Where no instruction is fetched, the core's step is the sequencer's. -/
theorem coreStep_of_fetch_eq_none {s : State} (h : fetch s = none) : coreStep s = seqStep s := by
  simp only [coreStep, h]

/-- A core that sends `INIT`, for `OPEN` or for `READ`, runs `INIT`. -/
theorem coreStep_of_sends_init {s : State} (h : s.seqState = .openSend ∨ s.seqState = .initSend) :
    coreStep s = exec .init s := by
  have hBusy : s.seqState ≠ .idle := by rcases h with h | h <;> simp [h]
  rw [coreStep_busy hBusy]
  rcases h with h | h <;> simp only [seqStep, h, exec]

/-- A core that sends `TRIG` runs `TRIG`. -/
theorem coreStep_of_trigSend {s : State} (h : s.seqState = .trigSend) : coreStep s = exec .trig s := by
  have hBusy : s.seqState ≠ .idle := by simp [h]
  rw [coreStep_busy hBusy]
  simp only [seqStep, h, exec]

/-- An idle core that fetches nothing has an empty port. -/
theorem port_eq_none_of_fetch_eq_none {s : State} (hq : s.seqState = .idle) (h : fetch s = none) :
    s.port = none := by
  simpa only [fetch, hq, Option.map_eq_none_iff] using h

/-- Settles O10: after the host's move a step is the core's step, which runs the request an idle core takes
from the port, and in a send state the command of that state. -/
theorem stepRunsTheDecodedInstruction : Obligations.StepRunsTheDecodedInstruction := by
  intro s hc hr
  rw [step_eq hc hr]
  refine ⟨fun r i hq hp hi => ?_, coreStep_of_sends_init, coreStep_of_trigSend⟩
  cases hi
  exact coreStep_idle hq hp

/-- Settles O11: with nothing fetched the core's step is the sequencer's, and that of an idle core is no
change. -/
theorem stepMakesTheOperationsStep : Obligations.StepMakesTheOperationsStep := by
  intro s hc hr hf
  rw [step_eq hc hr]
  refine ⟨coreStep_of_fetch_eq_none hf, fun hq => ?_⟩
  have hp := port_eq_none_of_fetch_eq_none hq hf
  exact ⟨hp, coreStep_waiting hq hp⟩

/-! ## What an accepted request writes -/

/-- What an idle core can become when it accepts the request `r`: `exec_request_cases` with a name for
each case. -/
inductive Acceptance (r : Request) (s : State) : State → Prop
  | answeredAtOnce (data : BitVec 40) : Acceptance r s (doneWith data { s with rspValid := false })
  | crcWritten (acc : Byte) (hop : r.op = 0x0#4 ∨ r.op = 0x1#4) :
    Acceptance r s (crcRespond acc { s with rspValid := false })
  | refused : Acceptance r s (failWith .refused { s with rspValid := false })
  | openStarted : Acceptance r s { s with rspValid := false, seqState := .openSend }
  | readStartedByInit : Acceptance r s { s with rspValid := false, seqState := .initSend }
  | readStartedByTrig : Acceptance r s { s with rspValid := false, seqState := .trigSend }
  | closed (hop : r.op = 0x6#4) :
    Acceptance r s (doneWith 0#40 { s with rspValid := false, sessionOpen := false })

/-- A request run by an idle core is accepted in one of these ways. -/
theorem exec_request_acceptance {r : Request} {s t : State} (hq : s.seqState = .idle)
    (h : exec (decodeRequest r) s = .next t) : Acceptance r s t := by
  rcases exec_request_cases hq h with ⟨data, rfl⟩ | ⟨acc, hop, rfl⟩ | rfl | ⟨-, rfl⟩ | ⟨-, -, rfl⟩ |
    ⟨-, -, rfl⟩ | ⟨hop, -, rfl⟩
  · exact .answeredAtOnce data
  · exact .crcWritten acc hop
  · exact .refused
  · exact .openStarted
  · exact .readStartedByInit
  · exact .readStartedByTrig
  · exact .closed hop

namespace Acceptance

variable {r : Request} {s t : State}

/-- No request writes the frame buffer. -/
theorem frame_eq (h : Acceptance r s t) : t.frame = s.frame := by
  cases h <;> rfl

/-- No request puts another one at the port. -/
theorem port_eq (h : Acceptance r s t) : t.port = s.port := by
  cases h <;> rfl

/-- Of the requests only `CRC.CLEAR` and `CRC.UPDATE` write the accumulator (R76, R77). -/
theorem crcAcc_writers (h : Acceptance r s t) :
    t.crcAcc = s.crcAcc ∨ r.op = 0x0#4 ∨ r.op = 0x1#4 := by
  cases h with
  | crcWritten acc hop => exact .inr hop
  | _ => exact .inl rfl

/-- Of the requests only `CLOSE` writes `SESSION_OPEN`, and it clears it (R117). -/
theorem sessionOpen_writers (h : Acceptance r s t) :
    t.sessionOpen = s.sessionOpen ∨ (r.op = 0x6#4 ∧ t.sessionOpen = false) := by
  cases h with
  | closed hop => exact .inr ⟨hop, rfl⟩
  | _ => exact .inl rfl

/-- An accepted request is answered at once, or its operation is under way and the old response is kept
but no longer valid. -/
theorem response_writers (h : Acceptance r s t) :
    (t.rspValid = true ∧ t.seqState = .idle) ∨
    (t.rspValid = false ∧ t.seqState ≠ .idle ∧ t.rspCode = s.rspCode ∧ t.rspData = s.rspData) := by
  cases h with
  | openStarted | readStartedByInit | readStartedByTrig => exact .inr ⟨rfl, nofun, rfl, rfl⟩
  | _ => exact .inl ⟨rfl, rfl⟩

end Acceptance

/-! ## What a row of the transition tables writes -/

namespace SeqTransition

variable {s t : State}

/-- The rows that store a frame are those of a whole receive (R102). -/
theorem frame_writers (h : SeqTransition s t) :
    t.frame = s.frame ∨
      (s.seqState = .pollRecv ∧ ∃ f rest, s.bus = .okFrame f :: rest ∧ t.frame = f) := by
  cases h with
  | recvBusy f rest hq hb => exact .inr ⟨hq, f, rest, hb, rfl⟩
  | recvReady f rest hq hb => exact .inr ⟨hq, f, rest, hb, rfl⟩
  | _ => exact .inl rfl

/-- The rows that write the accumulator are those of `VALIDATE` (R106). -/
theorem crcAcc_writers (h : SeqTransition s t) : t.crcAcc = s.crcAcc ∨ s.seqState = .validate := by
  cases h with
  | crcRight hq => exact .inr hq
  | crcWrong hq => exact .inr hq
  | _ => exact .inl rfl

/-- Both rows of `VALIDATE` leave the computed CRC in the accumulator (R106); no other row starts there. -/
theorem crcAcc_of_validate (h : SeqTransition s t) (hv : s.seqState = .validate) :
    t.crcAcc = crc8 (frameChecked s.frame) := by
  cases h with
  | crcRight => rfl
  | crcWrong => rfl
  | waits hw => simp [hv, transacting] at hw
  | _ => simp_all

/-- The row that writes `SESSION_OPEN` is the completion of `OPEN` (R115). -/
theorem sessionOpen_writers (h : SeqTransition s t) :
    t.sessionOpen = s.sessionOpen ∨
      (s.seqState = .openWait ∧ t.sessionOpen = true ∧ t.rspValid = true ∧ t.rspCode = 0#3) := by
  cases h with
  | opened hq => exact .inr ⟨hq, rfl, rfl, rfl⟩
  | _ => exact .inl rfl

/-- A row leaves the response registers alone, or completes an operation in progress. -/
theorem response_writers (h : SeqTransition s t) :
    (t.rspValid = s.rspValid ∧ t.rspCode = s.rspCode ∧ t.rspData = s.rspData) ∨
      (s.seqState ≠ .idle ∧ t.rspValid = true ∧ t.seqState = .idle) := by
  cases h with
  | openFailed _ hq | opened hq | initFailed _ hq | trigFailed _ hq | recvShort _ _ hq | recvFailed _ hq
  | exhausted hq | crcWrong hq | decoded hq => exact .inr ⟨by simp [hq], rfl, rfl⟩
  | _ => exact .inl ⟨rfl, rfl, rfl⟩

end SeqTransition

/-! ## What a step writes -/

/-- Without a reset a step is an idle core's acceptance of the request at the port, which leaves the port,
or a row of the transition tables after the host's move. -/
theorem step_next_without_reset {s t : State} (h : step s = .next t) (hr : resetPending s = false) :
    (s.seqState = .idle ∧ ∃ r, (hostTurn s).port = some r ∧
      Acceptance r { hostTurn s with port := none } t) ∨
    SeqTransition (hostTurn s) t := by
  obtain ⟨-, ⟨hr', -⟩ | ⟨-, ⟨hq, r, hp, hx⟩ | ⟨-, hRow⟩⟩⟩ := step_transition h
  · simp [hr] at hr'
  · exact .inl ⟨hq, r, hp, exec_request_acceptance (by simpa using hq) hx⟩
  · exact .inr hRow

/-- Settles O49: no request writes the frame buffer, and of the rows only those of a whole receive. -/
theorem frameWrittenOnlyByWholeReceive : Obligations.FrameWrittenOnlyByWholeReceive := by
  intro s t h hr
  rcases step_next_without_reset h hr with ⟨-, r, -, hAcc⟩ | hRow
  · exact .inl fun k => by rw [hAcc.frame_eq, hostTurn_frame]
  · rcases hRow.frame_writers with hFrame | ⟨hq, f, rest, hb, hFrame⟩
    · exact .inl fun k => by rw [hFrame, hostTurn_frame]
    · exact .inr ⟨by simpa using hq, f, rest, by simpa using hb, fun k => by rw [hFrame]⟩

/-- Settles O50: of the requests only opcodes 0 and 1 write the accumulator, of the rows only those of
`VALIDATE`, which leave the computed CRC in it. -/
theorem accumulatorWriters : Obligations.AccumulatorWriters := by
  intro s t h hr
  rcases step_next_without_reset h hr with ⟨hq, r, hp, hAcc⟩ | hRow
  · refine ⟨?_, fun hv => by simp [hq] at hv⟩
    rcases hAcc.crcAcc_writers with hKept | hop
    · exact .inl (by simpa using hKept)
    · exact .inr (.inr ⟨hq, r, hp, hop⟩)
  · refine ⟨?_, fun hv => ?_⟩
    · rcases hRow.crcAcc_writers with hKept | hv
      · exact .inl (by simpa using hKept)
      · exact .inr (.inl (by simpa using hv))
    · simpa [frameChecked] using hRow.crcAcc_of_validate (by simpa using hv)

/-- Without a reset a step keeps `SESSION_OPEN`, or completes `OPEN` with code 0, or accepts `CLOSE`. -/
theorem step_sessionOpen_writers {s t : State} (h : step s = .next t) (hr : resetPending s = false) :
    t.sessionOpen = s.sessionOpen ∨
    (s.seqState = .openWait ∧ t.sessionOpen = true ∧ t.rspValid = true ∧ t.rspCode = 0#3) ∨
    (s.seqState = .idle ∧ t.sessionOpen = false ∧ ∃ arg, (hostTurn s).port = some ⟨0x6#4, arg⟩) := by
  rcases step_next_without_reset h hr with ⟨hq, ⟨op, arg⟩, hp, hAcc⟩ | hRow
  · rcases hAcc.sessionOpen_writers with hKept | ⟨hop, hCleared⟩
    · exact .inl (by simpa using hKept)
    · cases hop
      exact .inr (.inr ⟨hq, hCleared, arg, hp⟩)
  · rcases hRow.sessionOpen_writers with hKept | ⟨hq, hDone⟩
    · exact .inl (by simpa using hKept)
    · exact .inr (.inl ⟨by simpa using hq, hDone⟩)

/-- Settles O51: reset clears `SESSION_OPEN`; without it the two writers are the completion of `OPEN`,
which sets it, and `CLOSE`, which clears it, and neither is a step of a `READ`. -/
theorem sessionOpenWriters : Obligations.SessionOpenWriters := by
  intro s t h
  cases hr : resetPending s with
  | true =>
    obtain ⟨-, ⟨-, rfl⟩ | ⟨hr', -⟩⟩ := step_next h
    · exact ⟨fun _ hSet => by simp [applyReset, State.reset] at hSet, fun _ _ => .inl rfl, nofun⟩
    · simp [hr] at hr'
  | false =>
    rcases step_sessionOpen_writers h hr with hKept | ⟨hq, hSet, hDone⟩ | ⟨hq, hCleared, hClose⟩
    · exact ⟨fun hs ht => by simp [hKept, hs] at ht, fun hs ht => by simp [hKept, hs] at ht,
        fun _ _ => hKept⟩
    · exact ⟨fun _ _ => ⟨hq, hDone⟩, fun _ ht => by simp [hSet] at ht,
        fun hRead => by simp [hq, reading] at hRead⟩
    · exact ⟨fun _ ht => by simp [hCleared] at ht, fun _ _ => .inr ⟨hq, hClose⟩,
        fun hRead => by simp [hq, reading] at hRead⟩

/-- Settles O52: an accepted request posts its response at once or clears `RSP_VALID` and starts its
operation; a row of the tables keeps the response registers or completes the operation in progress. -/
theorem responseWriters : Obligations.ResponseWriters := by
  intro s t h hr
  rcases step_next_without_reset h hr with ⟨hq, r, hp, hAcc⟩ | hRow
  · have hTaken : ∃ r, (hostTurn s).port = some r ∧ t.port = none := ⟨r, hp, hAcc.port_eq⟩
    rcases hAcc.response_writers with ⟨hValid, hIdle⟩ | ⟨hCleared, hBusy, hCode, hData⟩
    · exact ⟨fun _ => ⟨hValid, hIdle, .inr hTaken⟩, fun _ ht => by simp [hValid] at ht⟩
    · exact ⟨fun hChanged => by simp [hCleared, hCode, hData] at hChanged, fun _ _ => ⟨hq, hBusy, hTaken⟩⟩
  · rcases hRow.response_writers with ⟨hValid, hCode, hData⟩ | ⟨hBusy, hValid, hIdle⟩
    · rw [hostTurn_rspValid] at hValid
      exact ⟨fun hChanged => by simp [hValid, hCode, hData] at hChanged,
        fun hs ht => by simp [hValid, hs] at ht⟩
    · exact ⟨fun _ => ⟨hValid, hIdle, .inl (by simpa using hBusy)⟩, fun _ ht => by simp [hValid] at ht⟩

end Sys2Proof.Machine
end

section
/-! Proofs of the family 20_memory.md: which transaction or delay a step makes (R38 to R40, R50, R143) and
what a wire command leaves unchanged (R39). -/

namespace Sys2Proof.Machine

/-! ## The event of a step -/

/-- What a step from `s` to `t` adds to the trace, the state it belongs to, and the answer it takes. -/
inductive StepEvent (s t : State) : Prop
  | silent (htrace : t.trace = s.trace) (hbus : t.bus = s.bus)
  | delayed (ms : Nat) (htrace : t.trace = s.trace ++ [.delay ms]) (hbus : t.bus = s.bus)
      (hms : ((s.seqState = .openWait ∨ s.seqState = .initWait) ∧ ms = s.cfg.tInitMs) ∨
        (s.seqState = .settleWait ∧ ms = s.cfg.tSettleMs) ∨ (s.seqState = .pollWait ∧ ms = tPollMs))
  | sent (bytes : List Byte) (ans : SendAnswer) (htrace : t.trace = s.trace ++ [.send busAddr bytes ans])
      (hbytes : ((s.seqState = .openSend ∨ s.seqState = .initSend) ∧ bytes = cmdInit) ∨
        (s.seqState = .trigSend ∧ bytes = cmdTrig))
      (hans : (ans = .ok ∧ s.bus = .ok :: t.bus) ∨ (ans = .err ∧ s.bus = .err :: t.bus))
  | received (ans : RecvAnswer) (htrace : t.trace = s.trace ++ [.recv busAddr frameLen ans])
      (hq : s.seqState = .pollRecv)
      (hans : (∃ f, ans = .ok f ∧ s.bus = .okFrame f :: t.bus) ∨
        (∃ k, ans = .short k ∧ s.bus = .short k :: t.bus) ∨ (ans = .err ∧ s.bus = .err :: t.bus))

/-- The core's step after the host's move has the event of the whole step. -/
theorem StepEvent.of_hostTurn {s t : State} (h : StepEvent (hostTurn s) t) : StepEvent s t := by
  cases h with
  | silent htrace hbus => exact .silent (by simpa using htrace) (by simpa using hbus)
  | delayed ms htrace hbus hms =>
    exact .delayed ms (by simpa using htrace) (by simpa using hbus) (by simpa using hms)
  | sent bytes ans htrace hbytes hans =>
    exact .sent bytes ans (by simpa using htrace) (by simpa using hbytes) (by simpa using hans)
  | received ans htrace hq hans =>
    exact .received ans (by simpa using htrace) (by simpa using hq) (by simpa using hans)

/-- Taking the answer `a` leaves the rest of the script. -/
theorem bus_eq_cons_answered {s : State} {a : BusAnswer} {rest : List BusAnswer} (hb : s.bus = a :: rest) :
    s.bus = a :: (answered s).bus := by
  simp [hb]

/-- Accepting a request is no externally visible event. -/
theorem Acceptance.trace_eq {r : Request} {s t : State} (h : Acceptance r s t) : t.trace = s.trace := by
  cases h <;> rfl

/-- Accepting a request takes no answer from the script. -/
theorem Acceptance.bus_eq {r : Request} {s t : State} (h : Acceptance r s t) : t.bus = s.bus := by
  cases h <;> rfl

/-- Every row of the transition tables makes the transaction or the delay of the state it starts from, or
none. -/
theorem SeqTransition.stepEvent {s t : State} (h : SeqTransition s t) : StepEvent s t := by
  cases h with
  | waits | crcRight | crcWrong | decoded => exact .silent rfl rfl
  | opened hq => exact .delayed _ rfl rfl (.inl ⟨.inl hq, rfl⟩)
  | initWaited hq => exact .delayed _ rfl rfl (.inl ⟨.inr hq, rfl⟩)
  | settled hq => exact .delayed _ rfl rfl (.inr (.inl ⟨hq, rfl⟩))
  | retried hq | exhausted hq => exact .delayed _ rfl rfl (.inr (.inr ⟨hq, rfl⟩))
  | openSent rest hq hb => exact .sent _ _ rfl (.inl ⟨.inl hq, rfl⟩) (.inl ⟨rfl, bus_eq_cons_answered hb⟩)
  | openFailed rest hq hb => exact .sent _ _ rfl (.inl ⟨.inl hq, rfl⟩) (.inr ⟨rfl, bus_eq_cons_answered hb⟩)
  | initSent rest hq hb => exact .sent _ _ rfl (.inl ⟨.inr hq, rfl⟩) (.inl ⟨rfl, bus_eq_cons_answered hb⟩)
  | initFailed rest hq hb => exact .sent _ _ rfl (.inl ⟨.inr hq, rfl⟩) (.inr ⟨rfl, bus_eq_cons_answered hb⟩)
  | trigSent rest hq hb => exact .sent _ _ rfl (.inr ⟨hq, rfl⟩) (.inl ⟨rfl, bus_eq_cons_answered hb⟩)
  | trigFailed rest hq hb => exact .sent _ _ rfl (.inr ⟨hq, rfl⟩) (.inr ⟨rfl, bus_eq_cons_answered hb⟩)
  | recvBusy f rest hq hb | recvReady f rest hq hb =>
    exact .received _ rfl hq (.inl ⟨f, rfl, bus_eq_cons_answered hb⟩)
  | recvShort k rest hq hb => exact .received _ rfl hq (.inr (.inl ⟨k, rfl, bus_eq_cons_answered hb⟩))
  | recvFailed rest hq hb => exact .received _ rfl hq (.inr (.inr ⟨rfl, bus_eq_cons_answered hb⟩))

/-- The event of a step: a reset and an accepted request have none, a row of the tables that of its state. -/
theorem step_stepEvent {s t : State} (h : step s = .next t) : StepEvent s t := by
  cases hr : resetPending s with
  | true =>
    obtain ⟨-, ⟨-, rfl⟩ | ⟨hr', -⟩⟩ := step_next h
    · exact .silent rfl rfl
    · simp [hr] at hr'
  | false =>
    rcases step_next_without_reset h hr with ⟨-, r, -, hAcc⟩ | hRow
    · exact .silent (by simp [hAcc.trace_eq]) (by simp [hAcc.bus_eq])
    · exact hRow.stepEvent.of_hostTurn

/-- Settles O17: each kind of event of a step, with the fixed parameters and commands written out. -/
theorem oneEventPerStep : Obligations.OneEventPerStep := by
  intro s t h
  cases step_stepEvent h with
  | silent htrace hbus => exact .inl ⟨htrace, hbus⟩
  | delayed ms htrace hbus hms => exact .inr (.inl ⟨ms, htrace, hbus, hms⟩)
  | sent bytes ans htrace hbytes hans => exact .inr (.inr (.inl ⟨bytes, ans, htrace, hbytes, hans⟩))
  | received ans htrace hq hans => exact .inr (.inr (.inr ⟨ans, htrace, hq, hans⟩))

/-! ## What a wire command changes -/

/-- What the core does with the answer to a wire command: the sequencer moves or stays, or, after `err`
only, the operation fails. -/
inductive WireReaction (a : SendAnswer) (s : State) : State → Prop
  | moves (q : SeqState) : WireReaction a s { s with seqState := q }
  | fails (kind : ResultKind) (herr : a = .err) : WireReaction a s (failWith kind s)

/-- The answer to `INIT` is for `OPEN_SEND` and `INIT_SEND`; in the other states nothing follows it. -/
theorem initAnswered_reaction (a : SendAnswer) (s : State) : WireReaction a s (initAnswered a s) := by
  unfold initAnswered
  split
  · cases a with
    | ok => exact .moves .openWait
    | err => exact .fails .initError rfl
  · cases a with
    | ok => exact .moves .initWait
    | err => exact .fails .transportError rfl
  all_goals exact .moves s.seqState

/-- The answer to `TRIG` is for `TRIG_SEND`; in the other states nothing follows it. -/
theorem trigAnswered_reaction (a : SendAnswer) (s : State) : WireReaction a s (trigAnswered a s) := by
  unfold trigAnswered
  split
  · cases a with
    | ok => exact .moves .settleWait
    | err => exact .fails .transportError rfl
  all_goals exact .moves s.seqState

/-- A send that is waiting for its answer changes nothing; an answered one is recorded, then the core
reacts to the answer. -/
theorem busSend_reaction {bytes : List Byte} {react : SendAnswer → State → State} {s t : State}
    (hReact : ∀ a u, WireReaction a u (react a u)) (h : busSend bytes react s = .next t) :
    t = s ∨ ∃ a, (a = .err → s.bus.head? = some .err) ∧
      WireReaction a (record (.send busAddr bytes a) (answered s)) t := by
  rcases busSend_next h with ⟨-, rfl⟩ | ⟨rest, -, rfl⟩ | ⟨rest, hb, rfl⟩
  · exact .inl rfl
  · exact .inr ⟨.ok, nofun, hReact _ _⟩
  · exact .inr ⟨.err, fun _ => by simp [hb], hReact _ _⟩

/-- Each wire command is a send of its own encoding (R123 to R125). -/
theorem exec_wire_next {i : Instr} {s t : State} (hi : i = .init ∨ i = .trig ∨ i = .srst)
    (h : exec i s = .next t) :
    t = s ∨ ∃ bytes a, encode i = .wire bytes ∧ (a = .err → s.bus.head? = some .err) ∧
      WireReaction a (record (.send busAddr bytes a) (answered s)) t := by
  have hSend : ∃ bytes react, encode i = .wire bytes ∧ (∀ a u, WireReaction a u (react a u)) ∧
      exec i s = busSend bytes react s := by
    rcases hi with rfl | rfl | rfl
    · exact ⟨_, _, rfl, initAnswered_reaction, rfl⟩
    · exact ⟨_, _, rfl, trigAnswered_reaction, rfl⟩
    · exact ⟨_, _, rfl, fun _ u => .moves u.seqState, rfl⟩
  obtain ⟨bytes, react, hEnc, hReact, hExec⟩ := hSend
  rcases busSend_reaction hReact (hExec ▸ h) with rfl | ⟨a, hErr, hTaken⟩
  · exact .inl rfl
  · exact .inr ⟨bytes, a, hEnc, hErr, hTaken⟩

/-- No state waits for the answer to `SRST` (R125), so it touches neither the position nor the response. -/
theorem exec_srst_keeps_registers {s t : State} (h : exec .srst s = .next t) :
    t.seqState = s.seqState ∧ t.rspValid = s.rspValid ∧ t.rspCode = s.rspCode ∧ t.rspData = s.rspData := by
  have hSend : busSend cmdSrst (fun _ u => u) s = .next t := h
  rcases busSend_next hSend with ⟨-, rfl⟩ | ⟨rest, -, rfl⟩ | ⟨rest, -, rfl⟩ <;> exact ⟨rfl, rfl, rfl, rfl⟩

/-- Settles O48: an unanswered command changes nothing; an answered one is recorded, and then the
sequencer moves, or the operation fails, which it does after `err` only. -/
theorem wireCommandFrame : Obligations.WireCommandFrame := by
  intro i s t hi h
  have hSrst : i = .srst → t.seqState = s.seqState ∧ t.rspValid = s.rspValid ∧ t.rspCode = s.rspCode ∧
      t.rspData = s.rspData := by
    rintro rfl
    exact exec_srst_keeps_registers h
  rcases exec_wire_next hi h with rfl | ⟨bytes, a, hEnc, hErr, hReact⟩
  · exact ⟨rfl, rfl, rfl, fun _ => rfl, rfl, rfl, rfl, fun _ => ⟨rfl, rfl, rfl⟩, hSrst, .inl ⟨rfl, rfl⟩⟩
  · have hSent : ∃ bytes a, encode i = .wire bytes ∧ t.bus = s.bus.tail ∧
        t.trace = s.trace ++ [.send busAddr bytes a] := by
      cases hReact <;> exact ⟨bytes, a, hEnc, rfl, rfl⟩
    cases hReact with
    | moves q =>
      exact ⟨rfl, rfl, rfl, fun _ => rfl, rfl, rfl, rfl, fun _ => ⟨rfl, rfl, rfl⟩, hSrst, .inr hSent⟩
    | fails kind hFail =>
      exact ⟨rfl, rfl, rfl, fun _ => rfl, rfl, rfl, rfl, fun hNoErr => absurd (hErr hFail) hNoErr, hSrst,
        .inr hSent⟩

end Sys2Proof.Machine
end

section
/-! Proofs of the family 30_encoding.md: the layout and the operation map of a request (R58 to R60), the wire
commands (R54), when a step stops (R69), and requests to a busy core (R58). -/

namespace Sys2Proof

/-! ## Requests (R58 to R60) -/

/-- The opcode is what stands above the 48 bits of the argument. -/
theorem ofWord_op_toNat (w : BitVec 52) : (Request.ofWord w).op.toNat = w.toNat / 2 ^ 48 := by
  have hw : w.toNat < 2 ^ 52 := w.isLt
  simp only [Request.ofWord, BitVec.extractLsb'_toNat, Nat.shiftRight_eq_div_pow]
  omega

/-- The argument is the lower 48 bits. -/
theorem ofWord_arg_toNat (w : BitVec 52) : (Request.ofWord w).arg.toNat = w.toNat % 2 ^ 48 := by
  simp only [Request.ofWord, BitVec.extractLsb'_toNat, Nat.shiftRight_zero]

/-- The word of a request as a number. -/
theorem word_toNat (r : Request) : r.word.toNat = r.op.toNat * 2 ^ 48 + r.arg.toNat :=
  joinBits_toNat (by decide) r.op r.arg

/-- Writing back the request a word stands for gives the word. -/
theorem word_ofWord (w : BitVec 52) : (Request.ofWord w).word = w := by
  apply BitVec.eq_of_toNat_eq
  rw [word_toNat, ofWord_op_toNat, ofWord_arg_toNat]
  omega

/-- Reading back the word of a request gives the request. -/
theorem ofWord_word (r : Request) : Request.ofWord r.word = r := by
  have ha : r.arg.toNat < 2 ^ 48 := r.arg.isLt
  have hop : (Request.ofWord r.word).op = r.op := by
    apply BitVec.eq_of_toNat_eq
    rw [ofWord_op_toNat, word_toNat]
    omega
  have harg : (Request.ofWord r.word).arg = r.arg := by
    apply BitVec.eq_of_toNat_eq
    rw [ofWord_arg_toNat, word_toNat]
    omega
  calc Request.ofWord r.word = ⟨(Request.ofWord r.word).op, (Request.ofWord r.word).arg⟩ := rfl
    _ = r := by rw [hop, harg]

/-- Settles O4: both directions of the layout by numbers, and both round trips. -/
theorem requestWordLayout : Obligations.RequestWordLayout :=
  ⟨fun w => ⟨ofWord_op_toNat w, ofWord_arg_toNat w, word_ofWord w⟩, fun r => ⟨word_toNat r, ofWord_word r⟩⟩

/-- An operand field of an argument, by its number. -/
theorem extractLsb'_eq_ofNat_div {n : Nat} (start len : Nat) (x : BitVec n) :
    x.extractLsb' start len = BitVec.ofNat len (x.toNat / 2 ^ start) := by
  rw [← Nat.shiftRight_eq_div_pow]
  rfl

/-- The opcodes 0x8 to 0xF are reserved: the other rows of the map are those of 0x0 to 0x7. -/
theorem decodeRequest_of_eight_le {op : BitVec 4} (h : 8 ≤ op.toNat) (arg : BitVec 48) :
    decodeRequest ⟨op, arg⟩ = .reserved8F op := by
  unfold decodeRequest
  split
  case h_9 => rfl
  all_goals simp_all

/-- Settles O5: one row of the operation map after another, the operand fields by their numbers. -/
theorem opcodeSelectsOperation : Obligations.OpcodeSelectsOperation := by
  intro arg
  refine ⟨rfl, ?crcUpdate, ?unpack, ?scale, rfl, rfl, rfl, rfl, fun op h => decodeRequest_of_eight_le h arg⟩
  case crcUpdate | unpack | scale => simp [decodeRequest, extractLsb'_eq_ofNat_div]

/-! ## Wire commands (R54) -/

/-- A byte sequence decodes to the command whose bytes it is, and to nothing else. -/
theorem decodeWire_eq_ok_iff (bytes : List Byte) (i : Instr) :
    decodeWire bytes = .ok i ↔
      (bytes = cmdInit ∧ i = .init) ∨ (bytes = cmdTrig ∧ i = .trig) ∨ (bytes = cmdSrst ∧ i = .srst) := by
  constructor
  · intro h
    unfold decodeWire at h
    split at h
    · cases h; exact .inl ⟨‹_›, rfl⟩
    split at h
    · cases h; exact .inr (.inl ⟨‹_›, rfl⟩)
    split at h
    · cases h; exact .inr (.inr ⟨‹_›, rfl⟩)
    split at h <;> cases h
  · rintro (⟨rfl, rfl⟩ | ⟨rfl, rfl⟩ | ⟨rfl, rfl⟩) <;> rfl

/-- The three bytes of a 24-bit word, the first one most significant. -/
theorem bytes_of_24_bits_eq_iff {w : Nat} (hw : w < 2 ^ 24) (b0 b1 b2 : Byte) :
    [BitVec.ofNat 8 (w / 2 ^ 16), BitVec.ofNat 8 (w / 2 ^ 8), BitVec.ofNat 8 w] = [b0, b1, b2] ↔
      w = b0.toNat * 2 ^ 16 + b1.toNat * 2 ^ 8 + b2.toNat := by
  have h0 := b0.isLt
  have h1 := b1.isLt
  have h2 := b2.isLt
  simp only [List.cons.injEq, and_true, ← BitVec.toNat_inj, BitVec.toNat_ofNat]
  omega

/-- What a code word of wire bytes decodes to, as the opcode table numbers words. -/
theorem decodeTableWord_eq_some_of_wire {nbits w : Nat} {bytes : List Byte}
    (h : codeWordOfBits nbits w = some (.wire bytes)) (i : Instr) :
    decodeTableWord nbits w = some i ↔ decodeWire bytes = .ok i := by
  simp only [decodeTableWord, h, decode]
  cases decodeWire bytes <;> simp [Except.toOption]

/-- A number that does not fit its width is refused. -/
theorem decodeTableWord_eq_none {nbits w : Nat} (h : codeWordOfBits nbits w = none) :
    decodeTableWord nbits w = none := by
  simp only [decodeTableWord, h]

/-- 24 bits are three bytes on the wire (R54). -/
theorem codeWordOfBits_24 (w : Nat) :
    codeWordOfBits 24 w = if w < 2 ^ 24 then
      some (.wire [BitVec.ofNat 8 (w / 2 ^ 16), BitVec.ofNat 8 (w / 2 ^ 8), BitVec.ofNat 8 w]) else none :=
  rfl

/-- 8 bits are one byte on the wire (R54). -/
theorem codeWordOfBits_8 (w : Nat) :
    codeWordOfBits 8 w = if w < 2 ^ 8 then some (.wire [BitVec.ofNat 8 w]) else none :=
  rfl

/-- Of the numbers of 24 bits two are commands; no other number has 24 bits. -/
theorem decodeTableWord_24_eq_some_iff (w : Nat) (i : Instr) :
    decodeTableWord 24 w = some i ↔ (w = 0xBE0800 ∧ i = .init) ∨ (w = 0xAC3300 ∧ i = .trig) := by
  by_cases hw : w < 2 ^ 24
  · rw [decodeTableWord_eq_some_of_wire ((codeWordOfBits_24 w).trans (if_pos hw)), decodeWire_eq_ok_iff,
      cmdInit, cmdTrig, cmdSrst,
      bytes_of_24_bits_eq_iff hw, bytes_of_24_bits_eq_iff hw]
    simp
  · rw [decodeTableWord_eq_none ((codeWordOfBits_24 w).trans (if_neg hw))]
    exact ⟨nofun, by rintro (⟨h, -⟩ | ⟨h, -⟩) <;> omega⟩

/-- Of the numbers of 8 bits one is a command; no other number has 8 bits. -/
theorem decodeTableWord_8_eq_some_iff (w : Nat) (i : Instr) :
    decodeTableWord 8 w = some i ↔ w = 0xBA ∧ i = .srst := by
  by_cases hw : w < 2 ^ 8
  · have hSrst : BitVec.ofNat 8 w = 0xBA#8 ↔ w = 0xBA := by
      simp only [← BitVec.toNat_inj, BitVec.toNat_ofNat]
      omega
    rw [decodeTableWord_eq_some_of_wire ((codeWordOfBits_8 w).trans (if_pos hw)), decodeWire_eq_ok_iff,
      cmdInit, cmdTrig, cmdSrst]
    simp [hSrst]
  · rw [decodeTableWord_eq_none ((codeWordOfBits_8 w).trans (if_neg hw))]
    exact ⟨nofun, by rintro ⟨h, -⟩; omega⟩

/-- Settles O7: the commands of `decodeWire`, which the encoder writes, and the numbers of their bytes. -/
theorem exactlyThreeWireCommands : Obligations.ExactlyThreeWireCommands :=
  ⟨decodeWire_eq_ok_iff, rfl, rfl, rfl, decodeTableWord_24_eq_some_iff, decodeTableWord_8_eq_some_iff⟩

/-- Settles O9: the decoder evaluated at each word. -/
theorem specWordsDecodeRight : Obligations.SpecWordsDecodeRight :=
  ⟨rfl, rfl, rfl, rfl, rfl, rfl, rfl⟩

end Sys2Proof

namespace Sys2Proof.Machine

/-! ## A request to a busy core (R58) -/

/-- The meaning of every request is an acceptance. -/
theorem exec_request_eq_accept (r : Request) (s : State) :
    ∃ start, exec (decodeRequest r) s = accept start s := by
  unfold decodeRequest
  split <;> exact ⟨_, rfl⟩

/-- Settles O15: the meaning of a request is an acceptance, and a busy core does not accept. -/
theorem hostRequestNotAcceptedWhileBusy : Obligations.HostRequestNotAcceptedWhileBusy := by
  intro r s hBusy
  obtain ⟨start, hExec⟩ := exec_request_eq_accept r s
  rw [hExec, accept_busy start hBusy]

/-- Every row of the transition tables is a step of the sequencer, the other half of `seqStep_transition`. -/
theorem SeqTransition.seqStep_eq {s t : State} (h : SeqTransition s t) : seqStep s = .next t := by
  cases h with
  | waits h =>
    rcases h with hq | ⟨hq, hb⟩
    · simp only [seqStep, hq]
    · cases hs : s.seqState
      case openSend | initSend => simp only [seqStep, hs, execInit, busSend, hb]
      case trigSend => simp only [seqStep, hs, execTrig, busSend, hb]
      case pollRecv => simp only [seqStep, hs, pollRecvStep, busRecv, hb]
      all_goals simp [hs, transacting] at hq
  | openSent rest hq hb | openFailed rest hq hb =>
    simp [seqStep, hq, execInit, busSend, hb, initAnswered, openReact]
  | initSent rest hq hb | initFailed rest hq hb =>
    simp [seqStep, hq, execInit, busSend, hb, initAnswered, initReact]
  | trigSent rest hq hb | trigFailed rest hq hb =>
    simp [seqStep, hq, execTrig, busSend, hb, trigAnswered, trigReact]
  | opened hq => simp only [seqStep, hq, openWaitStep]
  | initWaited hq => simp only [seqStep, hq, initWaitStep]
  | settled hq => simp only [seqStep, hq, settleWaitStep]
  | recvBusy f rest hq hb hf | recvReady f rest hq hb hf =>
    simp [seqStep, hq, pollRecvStep, busRecv, hb, recvReact, frameReceived, hf]
  | recvShort k rest hq hb => simp only [seqStep, hq, pollRecvStep, busRecv, hb, recvReact]
  | recvFailed rest hq hb => simp only [seqStep, hq, pollRecvStep, busRecv, hb, recvReact]
  | retried hq ha | exhausted hq ha => simp [seqStep, hq, pollWaitStep, nextAttempt, ha]
  | crcRight hq hc | crcWrong hq hc => simp [seqStep, hq, validateStep, crcCompared, hc]
  | decoded hq => simp only [seqStep, hq, decodeStep]

/-- No row of the tables touches the port. -/
theorem SeqTransition.port_eq {s t : State} (h : SeqTransition s t) : t.port = s.port := by
  cases h <;> rfl

/-- No row of the tables looks at the port: the same row is there whatever stands at it. -/
theorem SeqTransition.with_port {s t : State} (h : SeqTransition s t) (p : Option Request) :
    SeqTransition { s with port := p } { t with port := p } := by
  cases h with
  | waits h => exact .waits h
  | openSent rest hq hb => exact .openSent rest hq hb
  | openFailed rest hq hb => exact .openFailed rest hq hb
  | opened hq => exact .opened hq
  | initSent rest hq hb => exact .initSent rest hq hb
  | initFailed rest hq hb => exact .initFailed rest hq hb
  | initWaited hq => exact .initWaited hq
  | trigSent rest hq hb => exact .trigSent rest hq hb
  | trigFailed rest hq hb => exact .trigFailed rest hq hb
  | settled hq => exact .settled hq
  | recvBusy f rest hq hb hf => exact .recvBusy f rest hq hb hf
  | recvReady f rest hq hb hf => exact .recvReady f rest hq hb hf
  | recvShort k rest hq hb => exact .recvShort k rest hq hb
  | recvFailed rest hq hb => exact .recvFailed rest hq hb
  | retried hq ha => exact .retried hq ha
  | exhausted hq ha => exact .exhausted hq ha
  | crcRight hq hc => exact .crcRight hq hc
  | crcWrong hq hc => exact .crcWrong hq hc
  | decoded hq => exact .decoded hq

/-- A busy core whose host makes no further move makes the step of its state. -/
theorem step_busy_no_moves {s : State} (hc : configLegal s.cfg = true) (hh : s.host = [])
    (hBusy : s.seqState ≠ .idle) : step s = seqStep s := by
  rw [step_eq hc (resetPending_no_moves hh), hostTurn_no_moves hh, coreStep_busy hBusy]

/-- Settles O14: the step of a busy core is a row of the tables, and no row looks at the port. -/
theorem busyCoreLeavesRequestWaiting : Obligations.BusyCoreLeavesRequestWaiting := by
  intro s t r hBusy hh hp h
  obtain ⟨hc, -⟩ := step_next h
  have hRow : SeqTransition s t := seqStep_transition (step_busy_no_moves hc hh hBusy ▸ h)
  have hWithout : step { s with port := none } = seqStep { s with port := none } :=
    step_busy_no_moves hc hh hBusy
  exact ⟨hRow.port_eq.trans hp, hWithout.trans (hRow.with_port none).seqStep_eq⟩

/-! ## When a step stops (R69) -/

/-- The outcomes of a step in the state `q` against the script `bus`: a next state where the next line, if
there is one, fits a transaction of `q`, and otherwise the fault. -/
inductive ScriptOutcome (q : SeqState) (bus : List BusAnswer) : Result → Prop
  | next (t : State) (hfits : transacting q = true → ∀ a rest, bus = a :: rest → answerFits q a = true) :
    ScriptOutcome q bus (.next t)
  | fault (a : BusAnswer) (rest : List BusAnswer) (hq : transacting q = true) (hb : bus = a :: rest)
      (ha : answerFits q a = false) : ScriptOutcome q bus (.fault .malformedAnswer)

/-- A state without a transaction needs only a next state. -/
theorem ScriptOutcome.of_not_transacting {q : SeqState} {bus : List BusAnswer} {x : Result}
    (hq : transacting q = false) (h : ∃ t, x = .next t) : ScriptOutcome q bus x := by
  obtain ⟨t, rfl⟩ := h
  exact .next t fun hq' => by simp [hq] at hq'

/-- The outcomes of a send: bytes and `short` do not fit it. -/
theorem busSend_outcome {q : SeqState} (hq : q = .openSend ∨ q = .initSend ∨ q = .trigSend)
    (bytes : List Byte) (react : SendAnswer → State → State) (s : State) :
    ScriptOutcome q s.bus (busSend bytes react s) := by
  have hTransacts : transacting q = true := by rcases hq with rfl | rfl | rfl <;> rfl
  cases hb : s.bus with
  | nil => simp only [busSend, hb]; exact .next s nofun
  | cons a rest =>
    cases a <;> simp only [busSend, hb]
    case ok | err =>
      refine .next _ fun _ a rest h => ?_
      cases h
      rcases hq with rfl | rfl | rfl <;> rfl
    case okFrame | short =>
      exact .fault _ rest hTransacts rfl (by rcases hq with rfl | rfl | rfl <;> rfl)

/-- The outcomes of a receive: an `ok` without bytes does not fit it. -/
theorem busRecv_outcome (react : RecvAnswer → State → State) (s : State) :
    ScriptOutcome .pollRecv s.bus (busRecv react s) := by
  cases hb : s.bus with
  | nil => simp only [busRecv, hb]; exact .next s nofun
  | cons a rest =>
    cases a <;> simp only [busRecv, hb]
    case ok => exact .fault _ rest rfl rfl rfl
    case err | okFrame | short =>
      refine .next _ fun _ a rest h => ?_
      cases h
      rfl

/-- The outcomes of the sequencer's step, state by state. -/
theorem seqStep_outcome (s : State) : ScriptOutcome s.seqState s.bus (seqStep s) := by
  cases hq : s.seqState <;> simp only [seqStep, hq]
  case openSend | initSend | trigSend => exact busSend_outcome (by simp) _ _ s
  case pollRecv => exact busRecv_outcome _ s
  all_goals exact .of_not_transacting rfl ⟨_, rfl⟩

/-- The outcomes of the core's step: a request always answers a next state. -/
theorem coreStep_outcome (s : State) : ScriptOutcome s.seqState s.bus (coreStep s) := by
  by_cases hq : s.seqState = .idle
  · rw [hq]
    refine .of_not_transacting rfl ?_
    cases hp : s.port with
    | none => exact ⟨s, coreStep_waiting hq hp⟩
    | some r => rw [coreStep_idle hq hp]; exact exec_request_next r _
  · rw [coreStep_busy hq]
    exact seqStep_outcome s

/-- Exactly one of the two outcomes, by what is next in the script. -/
theorem ScriptOutcome.next_or_fault {q : SeqState} {bus : List BusAnswer} {x : Result}
    (h : ScriptOutcome q bus x) :
    ((∃ t, x = .next t) ∨ x = .fault .malformedAnswer) ∧
    (x = .fault .malformedAnswer ↔
      transacting q = true ∧ ∃ a rest, bus = a :: rest ∧ answerFits q a = false) := by
  cases h with
  | next t hfits =>
    refine ⟨.inl ⟨t, rfl⟩, nofun, ?_⟩
    rintro ⟨hq, a, rest, hb, ha⟩
    simp [hfits hq a rest hb] at ha
  | fault a rest hq hb ha => exact ⟨.inr rfl, fun _ => ⟨hq, a, rest, hb, ha⟩, fun _ => rfl⟩

/-- Settles O13: a pending reset has a next state; without it the step is the core's, after a move of the
host that changes neither the state of the sequencer nor the script. -/
theorem stepStopsOnlyOnMalformedScript : Obligations.StepStopsOnlyOnMalformedScript := by
  intro s hc
  cases hr : resetPending s with
  | true =>
    have hReset : step s = .next (applyReset s) := by simp only [step, hc, hr]
    simp [hReset]
  | false =>
    have hOutcome := coreStep_outcome (hostTurn s)
    rw [hostTurn_seqState, hostTurn_bus, ← step_eq hc hr] at hOutcome
    simpa using hOutcome.next_or_fault

end Sys2Proof.Machine
end

section
/-! Proofs of the family 40_crc8.md: the CRC functions (R73 to R75), the two host operations on them (R76,
R77) and the properties of the CRC (R79). -/

namespace Sys2Proof.Machine

/-! ## The functions (R73 to R75) -/

/-- The test of R73 on integers. -/
theorem getLsbD_seven_iff (acc : Byte) : acc.getLsbD 7 = true ↔ 128 ≤ acc.toNat := by
  rw [show acc.getLsbD 7 = decide (128 ≤ acc.toNat) from BitVec.getLsbD_last acc, decide_eq_true_iff]

/-- One shift step on integers: doubled, cut to 8 bits, the polynomial added where the top bit was set. -/
theorem crc8Bit_toNat (acc : Byte) :
    (crc8Bit acc).toNat =
      if 128 ≤ acc.toNat then ((acc.toNat * 2) % 256) ^^^ 0x31 else (acc.toNat * 2) % 256 := by
  have hDouble : (acc <<< 1).toNat = (acc.toNat * 2) % 256 := by
    rw [BitVec.toNat_shiftLeft, Nat.shiftLeft_eq]
  unfold crc8Bit
  split
  case isTrue hTop => rw [if_pos ((getLsbD_seven_iff acc).mp hTop), BitVec.toNat_xor, hDouble]; rfl
  case isFalse hTop => rw [if_neg (mt (getLsbD_seven_iff acc).mpr hTop), hDouble]

/-- The byte step as iteration, for inductions over the number of shift steps. -/
theorem crc8Byte_eq_repeat (acc b : Byte) : crc8Byte acc b = Nat.repeat crc8Bit 8 (acc ^^^ b) := rfl

@[simp] theorem crc8_nil : crc8 [] = 0xFF#8 := rfl

/-- A sequence continued: the accumulator goes on from the CRC of the first part. -/
theorem crc8_append (x y : List Byte) : crc8 (x ++ y) = y.foldl crc8Byte (crc8 x) :=
  List.foldl_append

/-- Settles O22: the shift step on integers; the other functions are as the rules write them. -/
theorem crcDefinitions : Obligations.CrcDefinitions :=
  ⟨crc8Bit_toNat, crc8Byte_eq_repeat, crc8_nil, fun bytes b => crc8_append bytes [b]⟩

/-! ## Linearity (R79 (d)) -/

/-- The shift step without a branch: the conditional term is added to the shifted value. -/
theorem crc8Bit_eq_xor (acc : Byte) :
    crc8Bit acc = (acc <<< 1) ^^^ (if acc.getLsbD 7 then crcPoly else 0#8) := by
  unfold crc8Bit
  split
  case isTrue => rfl
  case isFalse => rw [BitVec.xor_zero]

/-- The conditional term of the shift step is linear. -/
theorem crcPoly_term_xor (p q : Bool) :
    (if p ^^ q then crcPoly else 0#8) = (if p then crcPoly else 0#8) ^^^ (if q then crcPoly else 0#8) := by
  cases p <;> cases q <;> rfl

/-- The shift step is linear over exclusive-or. -/
theorem crc8Bit_xor (a c : Byte) : crc8Bit (a ^^^ c) = crc8Bit a ^^^ crc8Bit c := by
  simp only [crc8Bit_eq_xor, BitVec.shiftLeft_xor_distrib, BitVec.getLsbD_xor, crcPoly_term_xor]
  ac_rfl

/-- So is any number of shift steps. -/
theorem repeat_crc8Bit_xor (n : Nat) (a c : Byte) :
    Nat.repeat crc8Bit n (a ^^^ c) = Nat.repeat crc8Bit n a ^^^ Nat.repeat crc8Bit n c := by
  induction n with
  | zero => rfl
  | succ n ih => simp only [Nat.repeat, ih, crc8Bit_xor]

/-- The byte step is linear in accumulator and byte together. -/
theorem crc8Byte_xor (a c b d : Byte) :
    crc8Byte (a ^^^ c) (b ^^^ d) = crc8Byte a b ^^^ crc8Byte c d := by
  have hRegroup : (a ^^^ c) ^^^ (b ^^^ d) = (a ^^^ b) ^^^ (c ^^^ d) := by ac_rfl
  simp only [crc8Byte_eq_repeat, hRegroup, repeat_crc8Bit_xor]

/-- Three runs side by side, the third one over zero bytes: their accumulators add up to that of the run
over the bytewise exclusive-or. -/
theorem foldl_crc8Byte_zipWith_xor {x y : List Byte} (h : x.length = y.length) (a c e : Byte) :
    (List.zipWith (· ^^^ ·) x y).foldl crc8Byte (a ^^^ c ^^^ e) =
      x.foldl crc8Byte a ^^^ y.foldl crc8Byte c ^^^
        (List.replicate x.length 0#8).foldl crc8Byte e := by
  induction x generalizing y a c e with
  | nil =>
    obtain rfl := List.length_eq_zero_iff.mp h.symm
    rfl
  | cons p x ih =>
    cases y with
    | nil => cases h
    | cons q y =>
      have hStep : crc8Byte (a ^^^ c ^^^ e) (p ^^^ q) =
          crc8Byte a p ^^^ crc8Byte c q ^^^ crc8Byte e 0#8 := by
        simp only [← crc8Byte_xor, BitVec.xor_zero]
      calc (List.zipWith (· ^^^ ·) x y).foldl crc8Byte (crc8Byte (a ^^^ c ^^^ e) (p ^^^ q))
        _ = (List.zipWith (· ^^^ ·) x y).foldl crc8Byte
              (crc8Byte a p ^^^ crc8Byte c q ^^^ crc8Byte e 0#8) := by rw [hStep]
        _ = _ := ih (Nat.succ.inj h) _ _ _

/-! ## Bijections (R79 (e)) -/

/-- Bit 0 of the result is the bit that was dropped: the shifted value is even and the polynomial odd. -/
theorem crc8Bit_getLsbD_zero (a : Byte) : (crc8Bit a).getLsbD 0 = a.getLsbD 7 := by
  rw [crc8Bit_eq_xor, BitVec.getLsbD_xor, BitVec.getLsbD_shiftLeft]
  cases a.getLsbD 7 <;> rfl

/-- Only zero is shifted to zero. -/
theorem crc8Bit_eq_zero {a : Byte} (h : crc8Bit a = 0#8) : a = 0#8 := by
  have hTop : a.getLsbD 7 = false := by rw [← crc8Bit_getLsbD_zero, h]; rfl
  have hLow : ¬ 128 ≤ a.toNat := mt (getLsbD_seven_iff a).mpr (by rw [hTop]; exact Bool.false_ne_true)
  have hDouble : (a.toNat * 2) % 256 = 0 :=
    calc (a.toNat * 2) % 256
      _ = (crc8Bit a).toNat := by rw [crc8Bit_toNat, if_neg hLow]
      _ = 0 := by rw [h]; rfl
  exact BitVec.eq_of_toNat_eq (show a.toNat = 0 by omega)

/-- The shift step is injective, by linearity. -/
theorem crc8Bit_injective {a c : Byte} (h : crc8Bit a = crc8Bit c) : a = c :=
  BitVec.xor_eq_zero_iff.mp (crc8Bit_eq_zero (by rw [crc8Bit_xor, h, BitVec.xor_self]))

/-- The shift step undoes the halving of an even value. -/
theorem crc8Bit_ushiftRight_one {d : Byte} (hEven : d.getLsbD 0 = false) : crc8Bit (d >>> 1) = d := by
  have hRange : d.toNat < 256 := d.isLt
  have hMod : d.toNat % 2 = 0 := by
    rw [BitVec.getLsbD, Nat.testBit_zero, decide_eq_false_iff_not] at hEven
    omega
  have hHalf : (d >>> 1).toNat = d.toNat / 2 := by
    rw [BitVec.toNat_ushiftRight, Nat.shiftRight_eq_div_pow, Nat.pow_one]
  apply BitVec.eq_of_toNat_eq
  rw [crc8Bit_toNat, hHalf, if_neg (by omega)]
  omega

/-- The shift step is surjective: an even value is reached from its half, an odd one by also setting the
top bit, which adds the polynomial. -/
theorem crc8Bit_surjective (d : Byte) : ∃ a, crc8Bit a = d := by
  cases hLow : d.getLsbD 0 with
  | false => exact ⟨d >>> 1, crc8Bit_ushiftRight_one hLow⟩
  | true =>
    have hEven : (d ^^^ crcPoly).getLsbD 0 = false := by rw [BitVec.getLsbD_xor, hLow]; rfl
    have hTop : crc8Bit 0x80#8 = crcPoly := rfl
    refine ⟨(d ^^^ crcPoly) >>> 1 ^^^ 0x80#8, ?_⟩
    rw [crc8Bit_xor, crc8Bit_ushiftRight_one hEven, hTop, BitVec.xor_assoc, BitVec.xor_self,
      BitVec.xor_zero]

/-- Any number of shift steps is injective. -/
theorem repeat_crc8Bit_injective (n : Nat) {a c : Byte}
    (h : Nat.repeat crc8Bit n a = Nat.repeat crc8Bit n c) : a = c := by
  induction n with
  | zero => exact h
  | succ n ih => exact ih (crc8Bit_injective h)

/-- Any number of shift steps is surjective. -/
theorem repeat_crc8Bit_surjective (n : Nat) (d : Byte) : ∃ a, Nat.repeat crc8Bit n a = d := by
  induction n generalizing d with
  | zero => exact ⟨d, rfl⟩
  | succ n ih =>
    obtain ⟨c, hLast⟩ := crc8Bit_surjective d
    obtain ⟨a, hFirst⟩ := ih c
    exact ⟨a, by rw [Nat.repeat, hFirst, hLast]⟩

/-- The byte step is injective in the accumulator. -/
theorem crc8Byte_injective {a c : Byte} (b : Byte) (h : crc8Byte a b = crc8Byte c b) : a = c :=
  (BitVec.xor_left_inj b).mp (repeat_crc8Bit_injective 8 h)

/-- The byte step is surjective in the accumulator. -/
theorem crc8Byte_surjective (d b : Byte) : ∃ a, crc8Byte a b = d := by
  obtain ⟨e, hSteps⟩ := repeat_crc8Bit_surjective 8 d
  refine ⟨e ^^^ b, ?_⟩
  rw [crc8Byte_eq_repeat, BitVec.xor_assoc, BitVec.xor_self, BitVec.xor_zero, hSteps]

/-- Accumulator and byte enter the byte step alike. -/
theorem crc8Byte_comm (a b : Byte) : crc8Byte a b = crc8Byte b a := by
  rw [crc8Byte_eq_repeat, BitVec.xor_comm, ← crc8Byte_eq_repeat]

/-- Different accumulators stay different over any sequence. -/
theorem foldl_crc8Byte_injective (bytes : List Byte) {a c : Byte}
    (h : bytes.foldl crc8Byte a = bytes.foldl crc8Byte c) : a = c := by
  induction bytes generalizing a c with
  | nil => exact h
  | cons b bytes ih => exact crc8Byte_injective b (ih h)

/-! ## Sensitivity and the appended checksum (R79 (b), (c)) -/

/-- Two messages of one CRC that differ in at most one byte are the same: a different byte makes different
accumulators, which stay different. -/
theorem byte_eq_of_crc8_eq {x y : List Byte} {b c : Byte} (h : crc8 (x ++ b :: y) = crc8 (x ++ c :: y)) :
    b = c := by
  rw [crc8_append, crc8_append] at h
  have hByte : crc8Byte (crc8 x) b = crc8Byte (crc8 x) c := foldl_crc8Byte_injective y h
  rw [crc8Byte_comm, crc8Byte_comm (crc8 x)] at hByte
  exact crc8Byte_injective (crc8 x) hByte

/-- Flipping a bit changes the byte. -/
theorem xor_twoPow_ne (b : Byte) (k : Fin 8) : b ^^^ BitVec.twoPow 8 k.val ≠ b := by
  intro h
  have hZero : BitVec.twoPow 8 k.val = 0#8 :=
    (BitVec.xor_right_inj b).mp (h.trans BitVec.xor_zero.symm)
  have hBit : (BitVec.twoPow 8 k.val).getLsbD k.val = true := by
    rw [BitVec.getLsbD_twoPow, decide_eq_true k.isLt, decide_eq_true rfl, Bool.and_self]
  rw [hZero, BitVec.getLsbD_zero] at hBit
  cases hBit

/-- A byte equal to the accumulator gives 0. -/
@[simp] theorem crc8Byte_self (b : Byte) : crc8Byte b b = 0#8 := by
  rw [crc8Byte_eq_repeat, BitVec.xor_self]
  rfl

/-- Settles O24: every clause from linearity and from the bijections. -/
theorem crcProperties : Obligations.CrcProperties := by
  refine ⟨crc8_nil, fun x y b k h => ?_, fun m => ?_, fun x y hLength => ?_,
    fun _ _ => crc8Bit_injective, crc8Bit_surjective, fun _ _ b => crc8Byte_injective b,
    crc8Byte_surjective⟩
  · exact xor_twoPow_ne b k (byte_eq_of_crc8_eq h)
  · rw [crc8_append]
    exact crc8Byte_self (crc8 m)
  · exact foldl_crc8Byte_zipWith_xor hLength crcInit crcInit crcInit

/-! ## The host operations (R76, R77) -/

/-- What `CRC.*` leaves of an idle core, field by field. -/
theorem crcRespond_of_idle (acc : Byte) {s : State} (hq : s.seqState = .idle) :
    crcRespond acc s = { s with
      crcAcc := acc, rspValid := true, rspCode := 0#3, rspData := BitVec.ofNat 40 acc.toNat } := by
  rw [BitVec.ofNat_toNat]
  cases s
  cases hq
  rfl

/-- `CRC.CLEAR` on an idle core. -/
theorem exec_crcClear {s : State} (hq : s.seqState = .idle) :
    exec .crcClear s = .next (crcRespond 0xFF#8 s) :=
  accept_idle (crcRespond crcInit) hq

/-- `CRC.UPDATE` on an idle core. -/
theorem exec_crcUpdate {s : State} (b : Byte) (hq : s.seqState = .idle) :
    exec (.crcUpdate b) s = .next (crcRespond (crc8Byte s.crcAcc b) s) :=
  accept_idle (fun a => crcRespond (crc8Byte a.crcAcc b) a) hq

/-- Settles O20: `CRC.CLEAR` responds with the initial value. -/
theorem crcClearResult : Obligations.CrcClearResult :=
  ⟨fun _ => rfl, fun _ hq => by rw [exec_crcClear hq, crcRespond_of_idle _ hq]; rfl⟩

/-- Settles O21: `CRC.UPDATE` responds with the byte step of the accumulator. -/
theorem crcUpdateResult : Obligations.CrcUpdateResult :=
  fun _ b hq => ⟨by rw [exec_crcUpdate b hq, crcRespond_of_idle _ hq], crc8Byte_self b⟩

/-- A list of instructions goes on from the next state of its first one. -/
theorem execAll_cons_of_next {i : Instr} {s t : State} (h : exec i s = .next t) (rest : List Instr) :
    execAll (i :: rest) s = execAll rest t := by
  simp only [execAll, h, nextState]

/-- From a core that `CRC.*` has answered, one `CRC.UPDATE` per byte folds the bytes into the accumulator. -/
theorem execAll_crcUpdate (bytes : List Byte) (acc : Byte) (s : State) :
    execAll (bytes.map .crcUpdate) (crcRespond acc s) = some (crcRespond (bytes.foldl crc8Byte acc) s) := by
  induction bytes generalizing acc with
  | nil => rfl
  | cons b bytes ih =>
    rw [List.map_cons, execAll_cons_of_next (exec_crcUpdate b rfl)]
    exact ih (crc8Byte acc b)

/-- Settles O23: `CRC.CLEAR` starts the fold and every `CRC.UPDATE` is a step of it. -/
theorem crcRequestsComputeCrc8 : Obligations.CrcRequestsComputeCrc8 := by
  intro bytes s hq
  rw [execAll_cons_of_next (exec_crcClear hq), execAll_crcUpdate, crcRespond_of_idle _ hq]
  rfl

end Sys2Proof.Machine
end

section
/-! Proofs of the family 41_field_decoder.md: the unpacker and its inverse (R83, R84), the scaler (R86, R88,
R89), the payload of a measurement (R87, R90) and the two host operations (R85, R87). -/

namespace Sys2Proof

/-! ## The two parts of a concatenation -/

/-- The upper part of `hi ‖ lo`, read back. -/
theorem extractLsb'_joinBits_hi {m n w : Nat} (h : m + n ≤ w) (hi : BitVec m) (lo : BitVec n) :
    (joinBits w hi lo).extractLsb' n m = hi := by
  apply BitVec.eq_of_toNat_eq
  rw [BitVec.extractLsb'_toNat, joinBits_toNat h, Nat.shiftRight_eq_div_pow, Nat.add_comm,
    Nat.add_mul_div_right _ _ (Nat.two_pow_pos n), Nat.div_eq_of_lt lo.isLt, Nat.zero_add,
    Nat.mod_eq_of_lt hi.isLt]

/-- The lower part of `hi ‖ lo`, read back. -/
theorem extractLsb'_joinBits_lo {m n w : Nat} (h : m + n ≤ w) (hi : BitVec m) (lo : BitVec n) :
    (joinBits w hi lo).extractLsb' 0 n = lo := by
  apply BitVec.eq_of_toNat_eq
  rw [BitVec.extractLsb'_toNat, joinBits_toNat h, Nat.shiftRight_zero, Nat.mul_add_mod',
    Nat.mod_eq_of_lt lo.isLt]

end Sys2Proof

namespace Sys2Proof.Machine

/-! ## The unpacker and its inverse (R83, R84) -/

/-- The humidity on integers: the first three bytes without their low nibble. -/
theorem unpackRaws_fst_toNat (d1 d2 d3 d4 d5 d6 : Byte) :
    (unpackRaws d1 d2 d3 d4 d5 d6).1.toNat = (d1.toNat * 65536 + d2.toNat * 256 + d3.toNat) / 16 := by
  simp (disch := decide) only [unpackRaws, BitVec.toNat_setWidth, BitVec.toNat_ushiftRight, joinBits_toNat,
    Nat.shiftRight_eq_div_pow]
  omega

/-- The temperature on integers: the low nibble of the third byte, then the last two bytes. -/
theorem unpackRaws_snd_toNat (d1 d2 d3 d4 d5 d6 : Byte) :
    (unpackRaws d1 d2 d3 d4 d5 d6).2.toNat = d3.toNat % 16 * 65536 + d4.toNat * 256 + d5.toNat := by
  simp (disch := decide) only [unpackRaws, joinBits_toNat, BitVec.extractLsb'_toNat, Nat.shiftRight_zero]
  omega

/-- Settles O25: the two formulas; the sixth byte does not stand in the unpacker. -/
theorem unpackFormulas : Obligations.UnpackFormulas :=
  fun d1 d2 d3 d4 d5 d6 _ =>
    ⟨unpackRaws_fst_toNat d1 d2 d3 d4 d5 d6, unpackRaws_snd_toNat d1 d2 d3 d4 d5 d6, rfl⟩

/-- The five packed bytes on integers. -/
theorem packRaws_toNat (h t : Raw) :
    (packRaws h t).1.toNat = h.toNat / 2 ^ 12 ∧ (packRaws h t).2.1.toNat = h.toNat / 2 ^ 4 % 256 ∧
    (packRaws h t).2.2.1.toNat = h.toNat % 16 * 16 + t.toNat / 2 ^ 16 ∧
    (packRaws h t).2.2.2.1.toNat = t.toNat / 2 ^ 8 % 256 ∧ (packRaws h t).2.2.2.2.toNat = t.toNat % 256 := by
  simp (disch := decide) only [packRaws, joinBits_toNat, BitVec.extractLsb'_toNat,
    Nat.shiftRight_eq_div_pow, true_and]
  omega

/-- Unpacking gives back what was packed. -/
theorem unpackRaws_packRaws (h t : Raw) (d6 : Byte) :
    unpackRaws (packRaws h t).1 (packRaws h t).2.1 (packRaws h t).2.2.1 (packRaws h t).2.2.2.1
      (packRaws h t).2.2.2.2 d6 = (h, t) := by
  obtain ⟨h1, h2, h3, h4, h5⟩ := packRaws_toNat h t
  simp only [Prod.ext_iff, BitVec.toNat_eq, unpackRaws_fst_toNat, unpackRaws_snd_toNat, h1, h2, h3, h4, h5]
  omega

/-- Packing gives back the five bytes that were unpacked. -/
theorem packRaws_unpackRaws (d1 d2 d3 d4 d5 d6 : Byte) :
    packRaws (unpackRaws d1 d2 d3 d4 d5 d6).1 (unpackRaws d1 d2 d3 d4 d5 d6).2 = (d1, d2, d3, d4, d5) := by
  have hHum := unpackRaws_fst_toNat d1 d2 d3 d4 d5 d6
  have hTemp := unpackRaws_snd_toNat d1 d2 d3 d4 d5 d6
  obtain ⟨h1, h2, h3, h4, h5⟩ :=
    packRaws_toNat (unpackRaws d1 d2 d3 d4 d5 d6).1 (unpackRaws d1 d2 d3 d4 d5 d6).2
  simp only [Prod.ext_iff, BitVec.toNat_eq, h1, h2, h3, h4, h5, hHum, hTemp]
  omega

/-- Settles O26: the layout by numbers, and the two round trips. -/
theorem packUnpackInverse : Obligations.PackUnpackInverse :=
  ⟨packRaws_toNat, unpackRaws_packRaws, packRaws_unpackRaws⟩

/-! ## The scaler (R86, R88, R89) -/

/-- The percentage is the floor of `h * 100 / 2^20`. -/
theorem humPct_floor (h : Raw) :
    humPct h * 2 ^ 20 ≤ h.toNat * 100 ∧ h.toNat * 100 < (humPct h + 1) * 2 ^ 20 := by
  unfold humPct
  omega

/-- The temperature is 50 less than the floor of `t * 200 / 2^20`. -/
theorem tempC_floor (t : Raw) :
    (tempC t + 50) * 2 ^ 20 ≤ (t.toNat : Int) * 200 ∧ (t.toNat : Int) * 200 < (tempC t + 51) * 2 ^ 20 := by
  unfold tempC
  omega

/-- Settles O28: the bounds of the two floors. -/
theorem scaleFormulas : Obligations.ScaleFormulas :=
  fun h t => ⟨(humPct_floor h).1, (humPct_floor h).2, tempC_floor t⟩

/-- The common factor 4 of 100 and `2^20` cancels. -/
theorem humPct_eq_shiftRight (h : Raw) : humPct h = (h.toNat * 25) >>> 18 := by
  rw [Nat.shiftRight_eq_div_pow]
  calc h.toNat * 100 / 2 ^ 20 = h.toNat * 25 * 4 / (2 ^ 18 * 4) := by omega
    _ = h.toNat * 25 / 2 ^ 18 := Nat.mul_div_mul_right _ _ (by decide)

/-- The common factor 8 of 200 and `2^20` cancels. -/
theorem tempC_eq_shiftRight (t : Raw) : tempC t = (((t.toNat * 25) >>> 17 : Nat) : Int) - 50 := by
  have hCancel : t.toNat * 200 / 2 ^ 20 = t.toNat * 25 / 2 ^ 17 := by
    calc t.toNat * 200 / 2 ^ 20 = t.toNat * 25 * 8 / (2 ^ 17 * 8) := by omega
      _ = t.toNat * 25 / 2 ^ 17 := Nat.mul_div_mul_right _ _ (by decide)
  rw [Nat.shiftRight_eq_div_pow, tempC, hCancel]

/-- Settles O29: the products by the width of a raw value, the narrower forms by cancelling. -/
theorem scaleNarrowForms : Obligations.ScaleNarrowForms := by
  intro h t
  have hHum : h.toNat < 2 ^ 20 := h.isLt
  have hTemp : t.toNat < 2 ^ 20 := t.isLt
  refine ⟨?_, ?_, ?_, ?_, humPct_eq_shiftRight h, tempC_eq_shiftRight t⟩ <;> omega

/-- The largest percentage is 99. -/
theorem humPct_le (h : Raw) : humPct h ≤ 99 := by
  have hFloor := humPct_floor h
  omega

/-- The temperature lies between -50 and 149. -/
theorem tempC_range (t : Raw) : -50 ≤ tempC t ∧ tempC t ≤ 149 := by
  have hFloor := tempC_floor t
  omega

/-- A larger humidity never gives a smaller percentage. -/
theorem humPct_mono {h h' : Raw} (hle : h.toNat ≤ h'.toNat) : humPct h ≤ humPct h' :=
  Nat.div_le_div_right (Nat.mul_le_mul_right 100 hle)

/-- A larger raw temperature never gives a smaller one in degrees. -/
theorem tempC_mono {t t' : Raw} (hle : t.toNat ≤ t'.toNat) : tempC t ≤ tempC t' :=
  Int.sub_le_sub_right (Int.ofNat_le.mpr (Nat.div_le_div_right (Nat.mul_le_mul_right 200 hle))) 50

/-- Settles O30: the ranges, the scaler evaluated at both ends, and monotony of both parts. -/
theorem scaleRangesAndMonotony : Obligations.ScaleRangesAndMonotony :=
  ⟨fun h t => ⟨humPct_le h, tempC_range t⟩, rfl, rfl,
    fun _ _ _ _ hHum hTemp => ⟨humPct_mono hHum, tempC_mono hTemp⟩⟩

/-! ## Payloads (R85, R87, R90) -/

/-- The payload of `UNPACK` as a number. -/
theorem payloadRaws_eq_ofNat (h t : Raw) :
    payloadRaws h t = BitVec.ofNat 40 (h.toNat * 2 ^ 20 + t.toNat) := by
  rw [← joinBits_toNat (w := 40) (by decide) h t, BitVec.ofNat_toNat, BitVec.setWidth_eq, payloadRaws]

/-- The two raw values joined are the five data bytes joined: the shared nibbles of `d3` meet again. -/
theorem unpackRaws_joined_toNat (d1 d2 d3 d4 d5 d6 : Byte) :
    (unpackRaws d1 d2 d3 d4 d5 d6).1.toNat * 2 ^ 20 + (unpackRaws d1 d2 d3 d4 d5 d6).2.toNat =
      d1.toNat * 2 ^ 32 + d2.toNat * 2 ^ 24 + d3.toNat * 2 ^ 16 + d4.toNat * 2 ^ 8 + d5.toNat := by
  rw [unpackRaws_fst_toNat, unpackRaws_snd_toNat]
  omega

/-- The upper five bytes of an argument, joined, are its bits 47:8. -/
theorem upper_bytes_joined_toNat (arg : BitVec 48) :
    (BitVec.ofNat 8 (arg.toNat / 2 ^ 40)).toNat * 2 ^ 32 + (BitVec.ofNat 8 (arg.toNat / 2 ^ 32)).toNat * 2 ^ 24 +
      (BitVec.ofNat 8 (arg.toNat / 2 ^ 24)).toNat * 2 ^ 16 + (BitVec.ofNat 8 (arg.toNat / 2 ^ 16)).toNat * 2 ^ 8 +
      (BitVec.ofNat 8 (arg.toNat / 2 ^ 8)).toNat = arg.toNat / 2 ^ 8 := by
  simp only [BitVec.toNat_ofNat]
  omega

/-- A percentage that fits its byte: the payload of a measurement as the number of R87. -/
theorem payloadMeasurement_eq_measurementWord {p : Nat} (hp : p < 2 ^ 8) (c : Int) :
    payloadMeasurement p c = measurementWord p c := by
  apply BitVec.eq_of_toNat_eq
  rw [payloadMeasurement, joinBits_toNat (by decide), measurementWord]
  simp only [BitVec.toNat_ofNat, BitVec.toNat_ofInt]
  omega

/-- What `SCALE` and `READ` post, as the number of R87. -/
theorem measurementOf_eq_measurementWord (h t : Raw) :
    measurementOf h t = measurementWord (scaleRaws h t).1 (scaleRaws h t).2 :=
  payloadMeasurement_eq_measurementWord (Nat.lt_of_le_of_lt (humPct_le h) (by decide)) (tempC t)

/-- What `SCALE` and `READ` post, as a concatenation. -/
theorem measurementOf_eq_joinBits (h t : Raw) :
    measurementOf h t = joinBits 40 (BitVec.ofNat 8 (humPct h)) (BitVec.ofInt 16 (tempC t)) := rfl

/-- Bits 23:16 of a measurement are the percentage, which fits 8 bits. -/
theorem measurementOf_humPct (h t : Raw) : ((measurementOf h t).extractLsb' 16 8).toNat = humPct h := by
  rw [measurementOf_eq_joinBits, extractLsb'_joinBits_hi (by decide), BitVec.toNat_ofNat]
  exact Nat.mod_eq_of_lt (Nat.lt_of_le_of_lt (humPct_le h) (by decide))

/-- Bits 15:0 of a measurement, signed, are the temperature, which fits 16 bits. -/
theorem measurementOf_tempC (h t : Raw) : ((measurementOf h t).extractLsb' 0 16).toInt = tempC t := by
  obtain ⟨hLow, hHigh⟩ := tempC_range t
  rw [measurementOf_eq_joinBits, extractLsb'_joinBits_lo (by decide)]
  exact BitVec.toInt_ofInt_eq_self (by decide) (by omega) (by omega)

/-- Bits 39:23 of a measurement are 0: no percentage reaches 128. -/
theorem measurementOf_upper_eq_zero (h t : Raw) : (measurementOf h t).extractLsb' 23 17 = 0#17 := by
  have hRange := humPct_le h
  apply BitVec.eq_of_toNat_eq
  rw [measurementOf_eq_joinBits, BitVec.extractLsb'_toNat, joinBits_toNat (by decide),
    Nat.shiftRight_eq_div_pow]
  simp only [BitVec.toNat_ofNat]
  omega

/-- The measurement read back from its payload (R90). -/
theorem measurementOf_reads_back (h t : Raw) :
    ((measurementOf h t).extractLsb' 16 8).toNat = (scaleRaws h t).1 ∧
    ((measurementOf h t).extractLsb' 0 16).toInt = (scaleRaws h t).2 ∧
    (measurementOf h t).extractLsb' 23 17 = 0#17 :=
  ⟨measurementOf_humPct h t, measurementOf_tempC h t, measurementOf_upper_eq_zero h t⟩

/-! ## The host operations (R85, R87) -/

/-- A request that only posts a payload, on an idle core: what it leaves, field by field. -/
theorem accept_doneWith_of_idle (data : BitVec 40) {s : State} (hq : s.seqState = .idle) :
    accept (doneWith data) s = .next { s with rspValid := true, rspCode := 0#3, rspData := data } := by
  rw [accept_idle _ hq]
  cases s
  cases hq
  rfl

/-- `UNPACK` on an idle core. -/
theorem exec_unpack {s : State} (hq : s.seqState = .idle) (d1 d2 d3 d4 d5 d6 : Byte) :
    exec (.unpack d1 d2 d3 d4 d5 d6) s = .next
      { s with rspValid := true, rspCode := 0#3,
               rspData := BitVec.ofNat 40 ((unpackRaws d1 d2 d3 d4 d5 d6).1.toNat * 2 ^ 20 +
                 (unpackRaws d1 d2 d3 d4 d5 d6).2.toNat) } := by
  rw [← payloadRaws_eq_ofNat]
  exact accept_doneWith_of_idle _ hq

/-- `SCALE` on an idle core. -/
theorem exec_scale {s : State} (hq : s.seqState = .idle) (h t : Raw) :
    exec (.scale h t) s =
      .next { s with rspValid := true, rspCode := 0#3, rspData := measurementOf h t } :=
  accept_doneWith_of_idle (measurementOf h t) hq

/-- Settles O27: the payload of `UNPACK` by numbers, and for opcode 2 the fields of its argument joined. -/
theorem unpackResult : Obligations.UnpackResult := by
  intro s hq
  refine ⟨exec_unpack hq, fun arg => ?_⟩
  obtain ⟨-, -, hDecode, -⟩ := opcodeSelectsOperation arg
  rw [hDecode, exec_unpack hq, unpackRaws_joined_toNat, upper_bytes_joined_toNat]

/-- Settles O31: the payload of `SCALE` by numbers, and the row of opcode 3 in the operation map. -/
theorem scaleResult : Obligations.ScaleResult := by
  intro s hq
  refine ⟨fun h t => ?_, fun arg => ?_⟩
  · rw [exec_scale hq, measurementOf_eq_measurementWord]
  · obtain ⟨-, -, -, hDecode, -⟩ := opcodeSelectsOperation arg
    exact hDecode

/-- Settles O32: the payload read back, and that `SCALE` posts it. -/
theorem measurementPayloadReadsBack : Obligations.MeasurementPayloadReadsBack :=
  ⟨measurementOf_reads_back, fun _ h t hq => ⟨_, exec_scale hq h t, measurementOf_reads_back h t⟩⟩

end Sys2Proof.Machine
end

section
/-! Proofs of the family 42_sequencer.md: the rules of `READ` (R96 to R107), the transitions of the sequencer
(R111, R115), its termination (R112), and the two views of a whole `READ` (R109, R110). -/

namespace Sys2Proof.Machine

/-! ## One row of the tables at a time (R96 to R107) -/

/-- A row of the transition tables that starts in a busy state is the core's step. -/
theorem SeqTransition.coreStep_eq {s t : State} (h : SeqTransition s t) (hBusy : s.seqState ≠ .idle) :
    coreStep s = .next t := by
  rw [coreStep_busy hBusy, h.seqStep_eq]

/-- An answered transaction: its answer leaves the script, its event is the newest. -/
theorem record_answered {s : State} {a : BusAnswer} {rest : List BusAnswer} (e : Event)
    (hb : s.bus = a :: rest) :
    record e (answered s) = { s with bus := rest, trace := s.trace ++ [e] } := by
  simp only [record, answered, hb, List.tail_cons]

/-- The BUSY test of R103 on the first byte as a number. -/
theorem frameBusy_eq_true_iff (f : Frame) : frameBusy f = true ↔ 128 ≤ f.b0.toNat :=
  getLsbD_seven_iff f.b0

/-- The BUSY test of R103 read from the other side. -/
theorem frameBusy_eq_false_iff (f : Frame) : frameBusy f = false ↔ f.b0.toNat < 128 := by
  rw [← Bool.not_eq_true, frameBusy_eq_true_iff, Nat.not_le]

/-- What `DECODE` posts is the number of R107. -/
theorem frameMeasurement_eq_frameWord (f : Frame) : frameMeasurement f = frameWord f :=
  measurementOf_eq_measurementWord _ _

/-- Settles O36: the two rows of `TRIG_SEND`, whose step is `TRIG`. -/
theorem trigCommandResult : Obligations.TrigCommandResult := by
  intro s rest
  refine ⟨fun hq hb => ?_, fun hq hb => ?_⟩ <;> rw [← coreStep_of_trigSend hq]
  · rw [(SeqTransition.trigSent rest hq hb).coreStep_eq (by simp [hq]), record_answered _ hb]
    rfl
  · rw [(SeqTransition.trigFailed rest hq hb).coreStep_eq (by simp [hq]), record_answered _ hb]
    rfl

/-- `READ` on an idle core. -/
theorem exec_readMeasurement {s : State} (hq : s.seqState = .idle) :
    exec .readMeasurement s = .next (readStart { s with rspValid := false }) :=
  accept_idle readStart hq

/-- Without a session `READ` is refused. -/
theorem readStart_of_closed {s : State} (ho : s.sessionOpen = false) : readStart s = failWith .refused s :=
  if_neg (by simp [ho])

/-- Under `EVERY_READ` a `READ` starts by sending `INIT`. -/
theorem readStart_of_everyRead {s : State} (ho : s.sessionOpen = true) (hp : s.cfg.policy = .everyRead) :
    readStart s = { s with seqState := .initSend } := by
  simp only [readStart, hp]
  exact if_pos ho

/-- Under `ONCE_AT_OPEN` a `READ` starts by sending `TRIG`. -/
theorem readStart_of_onceAtOpen {s : State} (ho : s.sessionOpen = true) (hp : s.cfg.policy = .onceAtOpen) :
    readStart s = { s with seqState := .trigSend } := by
  simp only [readStart, hp]
  exact if_pos ho

/-- A refusal of an idle core, field by field. -/
theorem failWith_refused_of_idle {s : State} (hq : s.seqState = .idle) :
    failWith .refused s = { s with rspValid := true, rspCode := 7#3, rspData := 0#40 } := by
  cases s
  cases hq
  rfl

/-- Settles O39: acceptance, and the three branches of its start. -/
theorem readAcceptance : Obligations.ReadAcceptance := by
  refine ⟨fun _ => rfl, fun s hBusy => accept_busy readStart hBusy, fun s hq => ?_⟩
  rw [exec_readMeasurement hq]
  refine ⟨fun ho => congrArg _ ?_, fun ho hp => congrArg _ ?_, fun ho hp => congrArg _ ?_⟩
  · exact (readStart_of_closed (s := { s with rspValid := false }) ho).trans (failWith_refused_of_idle hq)
  · exact readStart_of_everyRead ho hp
  · exact readStart_of_onceAtOpen ho hp

/-- Settles O40: the rows of the two states that only wait. -/
theorem initAndSettleDelays : Obligations.InitAndSettleDelays :=
  fun _ => ⟨fun hq => (SeqTransition.initWaited hq).coreStep_eq (by simp [hq]),
    fun hq => (SeqTransition.settled hq).coreStep_eq (by simp [hq])⟩

/-- Settles O41: the four rows of `POLL_RECV`. -/
theorem pollReceiveResult : Obligations.PollReceiveResult := by
  intro s rest hq
  have hBusy : s.seqState ≠ .idle := by simp [hq]
  refine ⟨fun f hb hf => ?_, fun f hb hf => ?_, fun k hb => ?_, fun hb => ?_⟩
  · rw [(SeqTransition.recvReady f rest hq hb ((frameBusy_eq_false_iff f).mpr hf)).coreStep_eq hBusy,
      record_answered _ hb]
    rfl
  · rw [(SeqTransition.recvBusy f rest hq hb ((frameBusy_eq_true_iff f).mpr hf)).coreStep_eq hBusy,
      record_answered _ hb]
    rfl
  · rw [(SeqTransition.recvShort k rest hq hb).coreStep_eq hBusy, record_answered _ hb]
    rfl
  · rw [(SeqTransition.recvFailed rest hq hb).coreStep_eq hBusy, record_answered _ hb]
    rfl

/-- `ATTEMPT` stands at `N_POLL` exactly when it is 10. -/
theorem attempt_eq_nPoll_iff (a : BitVec 4) : a = nPoll ↔ a.toNat = 10 :=
  BitVec.toNat_inj.symm

/-- Settles O42: the two rows of `POLL_WAIT`. -/
theorem pollWaitResult : Obligations.PollWaitResult := by
  intro s hq
  have hBusy : s.seqState ≠ .idle := by simp [hq]
  refine ⟨fun ha => ?_, fun ha => ?_⟩
  · have hNext : s.attempt + 1#4 = BitVec.ofNat 4 (s.attempt.toNat + 1) := by
      rw [BitVec.ofNat_add, BitVec.ofNat_toNat, BitVec.setWidth_eq]
    rw [← hNext]
    exact (SeqTransition.retried hq (mt (attempt_eq_nPoll_iff _).mp (Nat.ne_of_lt ha))).coreStep_eq hBusy
  · exact (SeqTransition.exhausted hq ((attempt_eq_nPoll_iff _).mpr ha)).coreStep_eq hBusy

/-- Settles O43: the two rows of `VALIDATE`. -/
theorem validateResult : Obligations.ValidateResult := by
  intro s hq
  have hBusy : s.seqState ≠ .idle := by simp [hq]
  refine ⟨fun hc => ?_, fun hc => (SeqTransition.crcWrong hq hc).coreStep_eq hBusy⟩
  rw [← hc]
  exact (SeqTransition.crcRight hq hc).coreStep_eq hBusy

/-- Settles O44: the row of `DECODE`, with the payload by numbers. -/
theorem decodeStepResult : Obligations.DecodeStepResult := by
  intro s h t p c hq hRaws hScaled
  have hWord : frameWord s.frame = measurementWord p c := by rw [frameWord, hRaws, hScaled]
  rw [(SeqTransition.decoded hq).coreStep_eq (by simp [hq]), frameMeasurement_eq_frameWord, hWord]
  rfl

/-! ## All transitions (R111, R112, R115) -/

/-- Settles O45: an accepted request leaves the core idle or starts `OPEN` or `READ`, and every row of the
tables but the waiting one moves as listed. -/
theorem noOtherTransition : Obligations.NoOtherTransition := by
  intro s t h
  rcases coreStep_next h with ⟨hq, -, rfl⟩ | ⟨hq, r, -, hExec⟩ | ⟨hBusy, hSeq⟩
  · exact .inl ⟨hq, hq⟩
  · cases exec_request_acceptance (s := { s with port := none }) hq hExec with
    | openStarted | readStartedByInit | readStartedByTrig => exact .inr (.inr (by simp [hq]))
    | _ => exact .inl ⟨hq, rfl⟩
  · cases seqStep_transition hSeq with
    | waits hw =>
      rcases hw with hq | ⟨hTransacts, hb⟩
      · exact absurd hq hBusy
      · exact .inr (.inl ⟨hTransacts, hb, rfl⟩)
    | openSent _ hq | openFailed _ hq | opened hq | initSent _ hq | initFailed _ hq | initWaited hq
    | trigSent _ hq | trigFailed _ hq | settled hq | recvBusy _ _ hq | recvReady _ _ hq | recvShort _ _ hq
    | recvFailed _ hq | retried hq | exhausted hq | crcRight hq | crcWrong hq | decoded hq =>
      exact .inr (.inr (by simp [hq]))

/-- `ATTEMPT` does not wrap while it is below 10. -/
theorem attempt_succ_toNat {a : BitVec 4} (h : a.toNat < 10) : (a + 1#4).toNat = a.toNat + 1 := by
  rw [BitVec.toNat_add]
  exact Nat.mod_eq_of_lt (by simpa using Nat.lt_trans (Nat.succ_lt_succ h) (by decide))

/-- The bound of R112 at its largest. -/
theorem remaining_le (s : State) : remaining s ≤ 26 := by
  unfold remaining
  split <;> omega

/-- Only an idle core has nothing left to do. -/
theorem remaining_pos {s : State} (h : s.seqState ≠ .idle) : 0 < remaining s := by
  unfold remaining
  split
  case h_1 hq => exact absurd hq h
  all_goals omega

/-- The host's move is no part of what is left to do. -/
@[simp] theorem remaining_hostTurn (s : State) : remaining (hostTurn s) = remaining s := by
  simp only [remaining, hostTurn_seqState, hostTurn_attempt]

/-- A row of the tables waits for an answer or lowers the bound; the next attempt costs two of the steps that
`ATTEMPT` counts. -/
theorem SeqTransition.remaining_lt {s t : State} (h : SeqTransition s t) (hBusy : s.seqState ≠ .idle)
    (hAttempt : s.attempt.toNat ≤ 10) :
    (transacting s.seqState = true ∧ s.bus = [] ∧ t = s) ∨ remaining t < remaining s := by
  cases h with
  | waits hw =>
    rcases hw with hq | ⟨hTransacts, hb⟩
    · exact absurd hq hBusy
    · exact .inl ⟨hTransacts, hb, rfl⟩
  | retried hq ha =>
    have hBelow : s.attempt.toNat < 10 := Nat.lt_of_le_of_ne hAttempt (mt (attempt_eq_nPoll_iff _).mpr ha)
    refine .inr ?_
    simp only [remaining, hq, attempt_succ_toNat hBelow]
    omega
  | openFailed | opened | initFailed | trigFailed | recvShort | recvFailed | exhausted | crcWrong | decoded =>
    exact .inr (remaining_pos hBusy)
  | openSent _ hq | initSent _ hq | initWaited hq | trigSent _ hq | settled hq | recvBusy _ _ hq
  | recvReady _ _ hq | crcRight hq => exact .inr (by simp [remaining, hq])

/-- Settles O58: a reset leaves nothing to do; otherwise the step is a row of the tables. -/
theorem answeredStepsTerminate : Obligations.AnsweredStepsTerminate := by
  intro s t hInv hBusy h
  obtain ⟨hAttempt, -⟩ := hInv
  refine ⟨remaining_le s, ?_⟩
  obtain ⟨-, ⟨-, rfl⟩ | ⟨-, ⟨hq, -⟩ | ⟨-, hRow⟩⟩⟩ := step_transition h
  · exact .inr (remaining_pos hBusy)
  · exact absurd hq hBusy
  · simpa using hRow.remaining_lt (by simpa using hBusy) (by simpa using hAttempt)

/-! ## The pseudocode of `READ` (R109) -/

/-- `t` is reached from `s` by at most `b` rows of the tables, each from a busy state. -/
inductive BusyWithin : Nat → State → State → Prop
  | done (b : Nat) (t : State) : BusyWithin b t t
  | row {b : Nat} {s u t : State} (hBusy : s.seqState ≠ .idle) (hRow : SeqTransition s u)
      (hRest : BusyWithin b u t) : BusyWithin (b + 1) s t

/-- A larger bound is a bound too. -/
theorem BusyWithin.mono {b c : Nat} {s t : State} (h : BusyWithin b s t) (hle : b ≤ c) :
    BusyWithin c s t := by
  induction h generalizing c with
  | done b t => exact .done c t
  | row hBusy hRow _ ih =>
    obtain ⟨d, rfl⟩ := Nat.exists_eq_add_of_le' (Nat.one_le_of_lt hle)
    exact .row hBusy hRow (ih (Nat.le_of_succ_le_succ hle))

/-- No row of the tables touches the configuration. -/
theorem SeqTransition.cfg_eq {s t : State} (h : SeqTransition s t) : t.cfg = s.cfg := by
  cases h <;> rfl

/-- No row of the tables makes a move of the host. -/
theorem SeqTransition.host_eq {s t : State} (h : SeqTransition s t) : t.host = s.host := by
  cases h <;> rfl

/-- A run continues from the next state of its first step. -/
theorem runSteps_succ_of_step {s u : State} (h : step s = .next u) (n : Nat) :
    runSteps (n + 1) s = runSteps n u := by
  simp only [runSteps, h]

/-- Where the host makes no move, rows of the tables are steps, and the core is busy until the last one. -/
theorem BusyWithin.runSteps_eq {b : Nat} {s t : State} (h : BusyWithin b s t)
    (hc : configLegal s.cfg = true) (hh : s.host = []) :
    ∃ n ≤ b, runSteps n s = .next t ∧ ∀ m < n, ∃ u, runSteps m s = .next u ∧ busyO u = true := by
  induction h with
  | done b t => exact ⟨0, Nat.zero_le b, rfl, nofun⟩
  | @row b s u t hBusy hRow hRest ih =>
    obtain ⟨n, hn, hRun, hBetween⟩ := ih (hRow.cfg_eq ▸ hc) (hRow.host_eq.trans hh)
    have hStep : step s = .next u := (step_busy_no_moves hc hh hBusy).trans hRow.seqStep_eq
    refine ⟨n + 1, Nat.succ_le_succ hn, (runSteps_succ_of_step hStep n).trans hRun, fun m hm => ?_⟩
    cases m with
    | zero => exact ⟨s, rfl, decide_eq_true hBusy⟩
    | succ m =>
      rw [runSteps_succ_of_step hStep]
      exact hBetween m (Nat.lt_of_succ_lt_succ hm)

/-- The end of `READ` with the right CRC. -/
theorem pseudoCheck_of_crc_eq {s : State} (h : crc8 (frameChecked s.frame) = frameByte s.frame 6) :
    pseudoCheck s = doneWith (frameMeasurement s.frame) { s with crcAcc := crc8 (frameChecked s.frame) } :=
  if_pos h

/-- The end of `READ` with a wrong CRC. -/
theorem pseudoCheck_of_crc_ne {s : State} (h : crc8 (frameChecked s.frame) ≠ frameByte s.frame 6) :
    pseudoCheck s = failWith .integrityError { s with crcAcc := crc8 (frameChecked s.frame) } :=
  if_neg h

/-- The steps of `VALIDATE` and `DECODE` reach what the pseudocode after the loop reaches. -/
theorem busyWithin_pseudoCheck (p : State) :
    BusyWithin 2 { p with seqState := .validate } (pseudoCheck p) := by
  by_cases hc : crc8 (frameChecked p.frame) = frameByte p.frame 6
  · rw [pseudoCheck_of_crc_eq hc]
    exact .row nofun (.crcRight rfl hc) (.row nofun (.decoded rfl) (.done 0 _))
  · rw [pseudoCheck_of_crc_ne hc]
    exact .row nofun (.crcWrong rfl hc) (.done 1 _)

/-! ### The polling loop (R102 to R105) -/

/-- The core of the pseudocode after `FRAME` was received whole. -/
def stored (f : Frame) (s : State) : State :=
  { record (.recv busAddr frameLen (.ok f)) (answered s) with frame := f }

/-- A frame that is not busy ends the polling loop. -/
theorem pseudoPoll_of_ready {s : State} {f : Frame} {rest : List BusAnswer} (fuel : Nat)
    (hb : s.bus = .okFrame f :: rest) (hf : frameBusy f = false) :
    pseudoPoll (fuel + 1) s = some (pseudoCheck (stored f s)) := by
  simp [pseudoPoll, hb, hf, stored]

/-- A busy frame at the last attempt ends the polling loop, after its delay. -/
theorem pseudoPoll_of_exhausted {s : State} {f : Frame} {rest : List BusAnswer} (fuel : Nat)
    (hb : s.bus = .okFrame f :: rest) (hf : frameBusy f = true) (ha : s.attempt = nPoll) :
    pseudoPoll (fuel + 1) s = some (failWith .sensorBusyError (delay tPollMs (stored f s))) := by
  simp [pseudoPoll, hb, hf, ha, stored]

/-- A busy frame before the last attempt leads, after its delay, to the next attempt. -/
theorem pseudoPoll_of_busy {s : State} {f : Frame} {rest : List BusAnswer} (fuel : Nat)
    (hb : s.bus = .okFrame f :: rest) (hf : frameBusy f = true) (ha : s.attempt ≠ nPoll) :
    pseudoPoll (fuel + 1) s =
      pseudoPoll fuel { delay tPollMs (stored f s) with attempt := s.attempt + 1#4 } := by
  simp [pseudoPoll, hb, hf, ha, stored]

/-- The steps of the polling loop reach what its pseudocode reaches: two for each busy frame, one for a
failed receive, three for a frame that is not busy. -/
theorem busyWithin_pseudoPoll {fuel : Nat} {p t : State} (h : pseudoPoll fuel p = some t) :
    BusyWithin (2 * fuel + 1) { p with seqState := .pollRecv } t := by
  induction fuel generalizing p with
  | zero => cases h
  | succ fuel ih =>
    obtain ⟨bus, hb⟩ : ∃ bus, p.bus = bus := ⟨_, rfl⟩
    cases bus with
    | nil => simp [pseudoPoll, hb] at h
    | cons a rest =>
      cases a with
      | ok => simp [pseudoPoll, hb] at h
      | err =>
        simp only [pseudoPoll, hb] at h
        cases h
        exact .row nofun (.recvFailed rest rfl hb) (.done _ _)
      | short k =>
        simp only [pseudoPoll, hb] at h
        cases h
        exact .row nofun (.recvShort k rest rfl hb) (.done _ _)
      | okFrame f =>
        cases hf : frameBusy f with
        | false =>
          rw [pseudoPoll_of_ready fuel hb hf] at h
          cases h
          exact .row nofun (.recvReady f rest rfl hb hf) 
            ((busyWithin_pseudoCheck (stored f p)).mono (Nat.le_add_left 2 (2 * fuel)))
        | true =>
          refine .row nofun (.recvBusy f rest rfl hb hf) ?_
          by_cases ha : p.attempt = nPoll
          · rw [pseudoPoll_of_exhausted fuel hb hf ha] at h
            cases h
            exact .row nofun (.exhausted rfl ha) (.done _ _)
          · rw [pseudoPoll_of_busy fuel hb hf ha] at h
            exact .row nofun (.retried rfl ha) (ih h)

/-! ### The sends, and the whole of `READ` -/

/-- The steps from `TRIG_SEND` reach what the pseudocode from the trigger reaches: 21 of the polling loop
after two. -/
theorem busyWithin_pseudoTrigger {p t : State} (h : pseudoTrigger p = some t) :
    BusyWithin 23 { p with seqState := .trigSend } t := by
  obtain ⟨bus, hb⟩ : ∃ bus, p.bus = bus := ⟨_, rfl⟩
  cases bus with
  | nil => simp [pseudoTrigger, hb] at h
  | cons a rest =>
    cases a with
    | ok =>
      simp only [pseudoTrigger, hb] at h
      exact .row nofun (.trigSent rest rfl hb) (.row nofun (.settled rfl) (busyWithin_pseudoPoll h))
    | err =>
      simp only [pseudoTrigger, hb] at h
      cases h
      exact .row nofun (.trigFailed rest rfl hb) (.done _ _)
    | okFrame | short => simp [pseudoTrigger, hb] at h

/-- The steps of an accepted `READ` reach what the pseudocode after acceptance reaches. -/
theorem busyWithin_pseudoInit {p t : State} (ho : p.sessionOpen = true) (h : pseudoInit p = some t) :
    BusyWithin 25 (readStart p) t := by
  cases hp : p.cfg.policy with
  | onceAtOpen =>
    simp only [pseudoInit, hp] at h
    rw [readStart_of_onceAtOpen ho hp]
    exact (busyWithin_pseudoTrigger h).mono (by decide)
  | everyRead =>
    simp only [pseudoInit, hp] at h
    rw [readStart_of_everyRead ho hp]
    obtain ⟨bus, hb⟩ : ∃ bus, p.bus = bus := ⟨_, rfl⟩
    cases bus with
    | nil => simp [hb] at h
    | cons a rest =>
      cases a with
      | ok =>
        simp only [hb] at h
        have hRest := busyWithin_pseudoTrigger h
        exact .row nofun (.initSent rest rfl hb) (.row nofun (.initWaited rfl) hRest)
      | err =>
        simp only [hb] at h
        cases h
        exact .row nofun (.initFailed rest rfl hb) (.done _ _)
      | okFrame | short => simp [hb] at h

/-- The steps after the acceptance of `READ` reach what the pseudocode reaches. -/
theorem busyWithin_readPseudocode {p t : State} (h : readPseudocode p = some t) :
    BusyWithin 25 (readStart { p with rspValid := false }) t := by
  by_cases ho : p.sessionOpen = true
  · rw [readPseudocode, if_pos ho] at h
    exact busyWithin_pseudoInit ho h
  · rw [readPseudocode, if_neg ho] at h
    cases h
    rw [readStart_of_closed (s := { p with rspValid := false }) ((Bool.not_eq_true _).mp ho)]
    exact .done _ _

/-- The accepting step of `READ`. -/
theorem step_readMeasurement {s : State} {arg : BitVec 48} (hc : configLegal s.cfg = true)
    (hq : s.seqState = .idle) (hh : s.host = []) (hp : s.port = some ⟨0x5#4, arg⟩) :
    step s = .next (readStart { s with port := none, rspValid := false }) := by
  rw [step_eq hc (resetPending_no_moves hh), hostTurn_no_moves hh, coreStep_idle hq hp]
  exact exec_readMeasurement hq

/-- The start of `READ` leaves the configuration alone. -/
@[simp] theorem readStart_cfg (s : State) : (readStart s).cfg = s.cfg := by
  unfold readStart; repeat' split
  all_goals rfl

/-- The start of `READ` is no move of the host. -/
@[simp] theorem readStart_host (s : State) : (readStart s).host = s.host := by
  unfold readStart; repeat' split
  all_goals rfl

/-- Settles O56: the accepting step, then the rows that follow the pseudocode. -/
theorem readStepsRefinePseudocode : Obligations.ReadStepsRefinePseudocode := by
  intro s t arg hc hq hh hp h
  have hAccept := step_readMeasurement hc hq hh hp
  obtain ⟨n, hn, hRun, hBetween⟩ :=
    (busyWithin_readPseudocode h).runSteps_eq (by simpa using hc) (by simpa using hh)
  refine ⟨n + 1, n.succ_pos, Nat.succ_le_succ hn, (runSteps_succ_of_step hAccept n).trans hRun,
    fun m hPos hm => ?_⟩
  cases m with
  | zero => cases hPos
  | succ m =>
    rw [runSteps_succ_of_step hAccept]
    exact hBetween m (Nat.lt_of_succ_lt_succ hm)

/-! ## The polling loop by its busy frames (R105, R110) -/

/-- The events of the busy frames `fs`: each is received and waited out. -/
def busyEvents (fs : List Frame) : List Event :=
  (fs.map fun f => [.recv busAddr frameLen (.ok f), .delay tPollMs]).flatten

/-- The core of the pseudocode after the busy frames `fs`, ready for the next attempt. -/
def afterBusy (fs : List Frame) (s : State) : State :=
  { s with
    frame := fs.getLastD s.frame
    attempt := s.attempt + BitVec.ofNat 4 fs.length
    bus := s.bus.drop fs.length
    trace := s.trace ++ busyEvents fs }

/-- The first of the busy frames is one turn of the loop. -/
theorem afterBusy_cons (f : Frame) (fs : List Frame) (s : State) :
    afterBusy (f :: fs) s = afterBusy fs { delay tPollMs (stored f s) with attempt := s.attempt + 1#4 } := by
  have hAttempt : s.attempt + BitVec.ofNat 4 (fs.length + 1) = s.attempt + 1#4 + BitVec.ofNat 4 fs.length := by
    rw [Nat.add_comm, BitVec.ofNat_add, BitVec.add_assoc]
  simp [afterBusy, busyEvents, stored, delay, record, answered, hAttempt, List.getLast?_cons]

/-- While `ATTEMPT` stays in range, the busy frames are counted in it. -/
theorem afterBusy_attempt_toNat {fs : List Frame} {s : State} (h : s.attempt.toNat + fs.length ≤ 10) :
    (afterBusy fs s).attempt.toNat = s.attempt.toNat + fs.length := by
  simp only [afterBusy, BitVec.toNat_add, BitVec.toNat_ofNat]
  omega

/-- The busy frames leave the script. -/
theorem afterBusy_bus {fs : List Frame} {s : State} {rest : List BusAnswer}
    (hb : s.bus = fs.map .okFrame ++ rest) : (afterBusy fs s).bus = rest := by
  simp [afterBusy, hb]

/-- As many busy frames as there are attempts left before the last one are turns of the polling loop. -/
theorem pseudoPoll_of_busy_frames {fs : List Frame} {s : State} {rest : List BusAnswer} (fuel : Nat)
    (hb : s.bus = fs.map .okFrame ++ rest) (hBusy : ∀ f ∈ fs, frameBusy f = true)
    (ha : s.attempt.toNat + fs.length ≤ 10) :
    pseudoPoll (fs.length + fuel) s = pseudoPoll fuel (afterBusy fs s) := by
  induction fs generalizing s with
  | nil => simp [afterBusy, busyEvents]
  | cons f fs ih =>
    rw [List.length_cons] at ha
    have hBelow : s.attempt.toNat < 10 := by omega
    rw [List.length_cons, Nat.succ_add,
      pseudoPoll_of_busy _ hb (hBusy f List.mem_cons_self) (mt (attempt_eq_nPoll_iff _).mp (Nat.ne_of_lt hBelow)),
      afterBusy_cons]
    refine ih ?_ (fun f hf => hBusy f (List.mem_cons_of_mem _ hf)) ?_
    · simp [stored, hb]
    · simp only [attempt_succ_toNat hBelow]
      omega

/-- The end of `READ` posts a response by the CRC and leaves everything else but the accumulator alone. -/
theorem pseudoCheck_eq_respond (s : State) :
    ∃ code data, pseudoCheck s = respond code data { s with crcAcc := crc8 (frameChecked s.frame) } ∧
      (crc8 (frameChecked s.frame) = frameByte s.frame 6 → code = 0#3 ∧ data = frameWord s.frame) ∧
      (crc8 (frameChecked s.frame) ≠ frameByte s.frame 6 → code = 3#3 ∧ data = 0#40) := by
  by_cases hc : crc8 (frameChecked s.frame) = frameByte s.frame 6
  · exact ⟨_, _, pseudoCheck_of_crc_eq hc, fun _ => ⟨rfl, frameMeasurement_eq_frameWord _⟩, absurd hc⟩
  · exact ⟨_, _, pseudoCheck_of_crc_ne hc, fun h => absurd h hc, fun _ => ⟨rfl, rfl⟩⟩

/-- What comes before the first receive of a `READ` whose sends are all answered `ok`: the answers and the
events, by `INIT_POLICY`. -/
def ReadPrelude (c : Config) (acks : List BusAnswer) (pre : List Event) : Prop :=
  (c.policy = .onceAtOpen ∧ acks = [.ok] ∧ pre = [.send busAddr cmdTrig .ok, .delay c.tSettleMs]) ∨
    (c.policy = .everyRead ∧ acks = [.ok, .ok] ∧
      pre = [.send busAddr cmdInit .ok, .delay c.tInitMs, .send busAddr cmdTrig .ok, .delay c.tSettleMs])

/-- The core of the pseudocode at its first receive, after the events `pre`, with the answers `bus` to come. -/
def pollEntry (pre : List Event) (bus : List BusAnswer) (s : State) : State :=
  { s with rspValid := false, attempt := 1#4, bus := bus, trace := s.trace ++ pre }

/-- With a session and every send answered `ok` the pseudocode comes to its polling loop. -/
theorem readPseudocode_of_prelude {s : State} {acks bus : List BusAnswer} {pre : List Event}
    (ho : s.sessionOpen = true) (hPre : ReadPrelude s.cfg acks pre) (hb : s.bus = acks ++ bus) :
    readPseudocode s = pseudoPoll nPoll.toNat (pollEntry pre bus s) := by
  rcases hPre with ⟨hp, rfl, rfl⟩ | ⟨hp, rfl, rfl⟩
  · simp [readPseudocode, ho, pseudoInit, hp, pseudoTrigger, hb, pollEntry, delay, record, answered]
  · simp [readPseudocode, ho, pseudoInit, hp, pseudoTrigger, hb, pollEntry, delay, record, answered]

/-- An answer that was received leaves the script. -/
theorem stored_bus {f : Frame} {s : State} {rest : List BusAnswer} (hb : s.bus = .okFrame f :: rest) :
    (stored f s).bus = rest := by
  simp [stored, hb]

/-- At most nine busy frames and then one that is not: the pseudocode ends in the response by the CRC of that
one. -/
theorem pseudoPoll_of_ready_after_busy {fs : List Frame} {g : Frame} {s : State} {rest : List BusAnswer}
    (hb : s.bus = fs.map .okFrame ++ .okFrame g :: rest) (ha : s.attempt = 1#4)
    (hBusy : ∀ f ∈ fs, frameBusy f = true) (hLength : fs.length ≤ 9) (hg : frameBusy g = false) :
    ∃ t : State, pseudoPoll nPoll.toNat s = some t ∧ t.seqState = .idle ∧ t.rspValid = true ∧ t.bus = rest ∧
      t.frame = g ∧ t.attempt.toNat = fs.length + 1 ∧ t.sessionOpen = s.sessionOpen ∧
      t.trace = s.trace ++ busyEvents fs ++ [Event.recv busAddr frameLen (.ok g)] ∧
      (crc8 (frameChecked g) = frameByte g 6 → t.rspCode = 0#3 ∧ t.rspData = frameWord g) ∧
      (crc8 (frameChecked g) ≠ frameByte g 6 → t.rspCode = 3#3 ∧ t.rspData = 0#40) := by
  have hOne : s.attempt.toNat = 1 := congrArg BitVec.toNat ha
  have hRange : s.attempt.toNat + fs.length ≤ 10 := by omega
  have hFuel : nPoll.toNat = fs.length + (9 - fs.length + 1) := by
    rw [← Nat.add_assoc, Nat.add_sub_cancel' hLength]
    rfl
  have hBus : (afterBusy fs s).bus = .okFrame g :: rest := afterBusy_bus hb
  obtain ⟨code, data, hCheck, hRight, hWrong⟩ := pseudoCheck_eq_respond (stored g (afterBusy fs s))
  refine ⟨pseudoCheck (stored g (afterBusy fs s)), ?_, ?_⟩
  · rw [hFuel, pseudoPoll_of_busy_frames _ hb hBusy hRange, pseudoPoll_of_ready _ hBus hg]
  · rw [hCheck]
    refine ⟨rfl, rfl, stored_bus hBus, rfl, ?_, ?_, ?_, hRight, hWrong⟩
    · rw [← hOne, Nat.add_comm]
      exact afterBusy_attempt_toNat hRange
    · simp [stored, afterBusy]
    · simp [stored, afterBusy]

/-- Ten busy frames: the pseudocode gives up after the tenth delay. -/
theorem pseudoPoll_of_ten_busy {fs : List Frame} {s : State} {rest : List BusAnswer}
    (hb : s.bus = fs.map .okFrame ++ rest) (ha : s.attempt = 1#4)
    (hBusy : ∀ f ∈ fs, frameBusy f = true) (hLength : fs.length = 10) :
    ∃ t : State, pseudoPoll nPoll.toNat s = some t ∧ t.seqState = .idle ∧ t.rspValid = true ∧ t.bus = rest ∧
      t.attempt.toNat = 10 ∧ t.sessionOpen = s.sessionOpen ∧ t.rspCode = 2#3 ∧ t.rspData = 0#40 ∧
      t.crcAcc = s.crcAcc ∧
      t.trace = s.trace ++ busyEvents fs := by
  obtain rfl | ⟨init, g, rfl⟩ := fs.eq_nil_or_concat
  · cases hLength
  · rw [List.concat_eq_append] at hb hBusy hLength ⊢
    rw [List.length_append] at hLength
    have hNine : init.length = 9 := Nat.succ.inj hLength
    rw [List.map_append, List.append_assoc] at hb
    have hRange : s.attempt.toNat + init.length = 10 := by rw [ha, hNine]; rfl
    have hTen := (afterBusy_attempt_toNat (Nat.le_of_eq hRange)).trans hRange
    have hFuel : nPoll.toNat = init.length + (0 + 1) := by rw [hNine]; rfl
    have hBus : (afterBusy init s).bus = .okFrame g :: rest := afterBusy_bus hb
    have hInit : ∀ f ∈ init, frameBusy f = true := fun f hf => hBusy f (List.mem_append_left _ hf)
    refine ⟨failWith .sensorBusyError (delay tPollMs (stored g (afterBusy init s))), ?_,
      rfl, rfl, stored_bus hBus, hTen, ?_, rfl, rfl, ?_, ?_⟩
    · rw [hFuel, pseudoPoll_of_busy_frames _ hb hInit (Nat.le_of_eq hRange),
        pseudoPoll_of_exhausted _ hBus (hBusy g (by simp)) ((attempt_eq_nPoll_iff _).mpr hTen)]
    · simp [stored, afterBusy]
    · simp [stored, afterBusy]
    · simp [stored, afterBusy, busyEvents]

/-- Where the polling loop of the pseudocode ends, an accepted `READ` whose sends are all answered `ok` ends
too. -/
theorem runSteps_of_pseudoPoll {s t : State} {arg : BitVec 48} {acks bus : List BusAnswer} {pre : List Event}
    (hc : configLegal s.cfg = true) (hq : s.seqState = .idle) (ho : s.sessionOpen = true) (hh : s.host = [])
    (hp : s.port = some ⟨0x5#4, arg⟩) (hPre : ReadPrelude s.cfg acks pre) (hb : s.bus = acks ++ bus)
    (hPoll : pseudoPoll nPoll.toNat (pollEntry pre bus { s with port := none }) = some t) :
    ∃ n, runSteps n s = .next t := by
  have hRead := (readPseudocode_of_prelude (s := { s with port := none }) ho hPre hb).trans hPoll
  obtain ⟨n, -, -, hRun, -⟩ := readStepsRefinePseudocode s t arg hc hq hh hp hRead
  exact ⟨n, hRun⟩

/-- Settles O57: what the polling loop of the pseudocode ends in by its busy frames, and the steps that reach
it. -/
theorem busyFramesDecidePolling : Obligations.BusyFramesDecidePolling := by
  intro s arg fs g rest pre acks hc hq ho hh hp hFrames hPre
  have hBusy : ∀ f ∈ fs, frameBusy f = true := fun f hf => (frameBusy_eq_true_iff f).mpr (hFrames f hf)
  refine ⟨fun hLength hg hb => ?_, fun hLength hb => ?_⟩ <;> rw [List.append_assoc] at hb
  · obtain ⟨t, hPoll, hIdle, hValid, hBus, hFrame, hAttempt, hOpen, hEnd⟩ :=
      pseudoPoll_of_ready_after_busy (s := pollEntry pre _ { s with port := none }) rfl rfl hBusy hLength
        ((frameBusy_eq_false_iff g).mpr hg)
    obtain ⟨n, hRun⟩ := runSteps_of_pseudoPoll hc hq ho hh hp hPre hb hPoll
    exact ⟨n, t, hRun, hIdle, hValid, hBus, hFrame, hAttempt, hOpen.trans ho, hEnd⟩
  · obtain ⟨t, hPoll, hIdle, hValid, hBus, hAttempt, hOpen, hEnd⟩ :=
      pseudoPoll_of_ten_busy (s := pollEntry pre _ { s with port := none }) rfl rfl hBusy hLength
    obtain ⟨n, hRun⟩ := runSteps_of_pseudoPoll hc hq ho hh hp hPre hb hPoll
    exact ⟨n, t, hRun, hIdle, hValid, hBus, hAttempt, hOpen.trans ho, hEnd⟩

end Sys2Proof.Machine
end

section
/-! Proofs of the family 43_session.md: acceptance of `OPEN` and `CLOSE` (R115 to R117), the whole of `OPEN`
(R115, R116), the frames of the one-step requests and of acceptance, and the independence of `READ` from what
earlier operations left behind (R118). -/

namespace Sys2Proof.Machine

/-! ## `OPEN` and `CLOSE` on an idle core (R115 to R117) -/

/-- `OPEN` on an idle core. -/
theorem exec_openSession {s : State} (hq : s.seqState = .idle) :
    exec .openSession s = .next (openStart { s with rspValid := false }) :=
  accept_idle openStart hq

/-- With a session open `OPEN` is refused. -/
theorem openStart_of_open {s : State} (ho : s.sessionOpen = true) : openStart s = failWith .refused s :=
  if_pos ho

/-- Without a session `OPEN` starts by sending `INIT`. -/
theorem openStart_of_closed {s : State} (ho : s.sessionOpen = false) :
    openStart s = { s with seqState := .openSend } :=
  if_neg (by simp [ho])

/-- Settles O33: the two branches of the start of `OPEN`. -/
theorem openAcceptance : Obligations.OpenAcceptance := by
  intro s hq
  rw [exec_openSession hq]
  refine ⟨fun ho => congrArg _ ?_, fun ho => congrArg _ ?_⟩
  · exact openStart_of_closed ho
  · exact (openStart_of_open (s := { s with rspValid := false }) ho).trans (failWith_refused_of_idle hq)

/-- A completion in an idle core, field by field. -/
theorem respond_of_idle (code : BitVec 3) (data : BitVec 40) {s : State} (hq : s.seqState = .idle) :
    respond code data s = { s with rspValid := true, rspCode := code, rspData := data } := by
  simp only [respond, hq]

/-- `CLOSE` on an idle core. -/
theorem exec_closeSession {s : State} (hq : s.seqState = .idle) :
    exec .closeSession s = .next (closeStart { s with rspValid := false }) :=
  accept_idle closeStart hq

/-- With a session open `CLOSE` ends it. -/
theorem closeStart_of_open {s : State} (ho : s.sessionOpen = true) :
    closeStart s = doneWith 0#40 { s with sessionOpen := false } :=
  if_pos ho

/-- Without a session `CLOSE` is refused. -/
theorem closeStart_of_closed {s : State} (ho : s.sessionOpen = false) : closeStart s = failWith .refused s :=
  if_neg (by simp [ho])

/-- Settles O34: acceptance, and the two branches of the start of `CLOSE`. -/
theorem closeResult : Obligations.CloseResult := by
  refine ⟨fun _ => rfl, fun s hBusy => accept_busy closeStart hBusy, fun s hq => ?_⟩
  rw [exec_closeSession hq]
  refine ⟨fun ho => congrArg _ ?_, fun ho => congrArg _ ?_⟩
  · exact (closeStart_of_open (s := { s with rspValid := false }) ho).trans (respond_of_idle _ _ hq)
  · exact (closeStart_of_closed (s := { s with rspValid := false }) ho).trans (failWith_refused_of_idle hq)

/-! ## The whole of `OPEN` (R115, R116) -/

/-- The accepting step of `OPEN`. -/
theorem step_openSession {s : State} {arg : BitVec 48} (hc : configLegal s.cfg = true)
    (hq : s.seqState = .idle) (hh : s.host = []) (hp : s.port = some ⟨0x4#4, arg⟩) :
    step s = .next (openStart { s with port := none, rspValid := false }) := by
  rw [step_eq hc (resetPending_no_moves hh), hostTurn_no_moves hh, coreStep_idle hq hp]
  exact exec_openSession hq

/-- Without a further move of the host and with an empty port, a step is the sequencer's, in a busy and in an
idle core. -/
theorem step_eq_seqStep {s : State} (hc : configLegal s.cfg = true) (hh : s.host = []) (hp : s.port = none) :
    step s = seqStep s := by
  by_cases hq : s.seqState = .idle
  · rw [step_eq hc (resetPending_no_moves hh), hostTurn_no_moves hh, coreStep_waiting hq hp]
    simp only [seqStep, hq]
  · exact step_busy_no_moves hc hh hq

/-- Where the host makes no move and the port is empty, a row of the tables is a step. -/
theorem SeqTransition.step_eq_next {s t : State} (h : SeqTransition s t) (hc : configLegal s.cfg = true)
    (hh : s.host = []) (hp : s.port = none) : step s = .next t :=
  (step_eq_seqStep hc hh hp).trans h.seqStep_eq

/-- The core after the acceptance of `OPEN` without a session. -/
def openAccepted (s : State) : State :=
  { s with rspValid := false, seqState := .openSend, port := none }

/-- Without a session the accepting step of `OPEN` leads to `OPEN_SEND`. -/
theorem step_eq_openAccepted {s : State} {arg : BitVec 48} (hc : configLegal s.cfg = true)
    (hq : s.seqState = .idle) (hh : s.host = []) (hp : s.port = some ⟨0x4#4, arg⟩)
    (ho : s.sessionOpen = false) : step s = .next (openAccepted s) :=
  (step_openSession hc hq hh hp).trans (congrArg _ (openStart_of_closed ho))

/-- The core of an accepted `OPEN` after `INIT` was delivered. -/
def openDelivered (rest : List BusAnswer) (s : State) : State :=
  { openAccepted s with
    seqState := .openWait, bus := rest, trace := s.trace ++ [.send busAddr cmdInit .ok] }

/-- With the answer `ok` the step of `OPEN_SEND` leads to `OPEN_WAIT`. -/
theorem step_openAccepted_of_ok {s : State} {rest : List BusAnswer} (hc : configLegal s.cfg = true)
    (hh : s.host = []) (hb : s.bus = .ok :: rest) :
    step (openAccepted s) = .next (openDelivered rest s) := by
  rw [(SeqTransition.openSent (s := openAccepted s) rest rfl hb).step_eq_next hc hh rfl,
    record_answered (s := openAccepted s) _ hb]
  rfl

/-- Settles O38: the accepting step, then the rows of `OPEN_SEND` and `OPEN_WAIT`. -/
theorem openRunsToItsResponse : Obligations.OpenRunsToItsResponse := by
  intro s arg rest hc hq hh hp
  have hAccept := fun ho : s.sessionOpen = false => step_eq_openAccepted hc hq hh hp ho
  refine ⟨fun ho => ?_, fun ho => ?_, fun ho hb => ?_, fun ho hb => ?_, fun ho hb => ?_⟩
  · have hRefused := openStart_of_open (s := { s with port := none, rspValid := false }) ho
    rw [runSteps_succ_of_step (step_openSession hc hq hh hp), hRefused]
    exact congrArg _ (failWith_refused_of_idle hq)
  · exact runSteps_succ_of_step (hAccept ho) 0
  · rw [runSteps_succ_of_step (hAccept ho), runSteps_succ_of_step (step_openAccepted_of_ok hc hh hb)]
    rfl
  · have hOpened := SeqTransition.opened (s := openDelivered rest s) rfl
    rw [runSteps_succ_of_step (hAccept ho), runSteps_succ_of_step (step_openAccepted_of_ok hc hh hb),
      runSteps_succ_of_step (hOpened.step_eq_next hc hh rfl), List.append_cons, hq]
    rfl
  · have hFailed := SeqTransition.openFailed (s := openAccepted s) rest rfl hb
    rw [runSteps_succ_of_step (hAccept ho), runSteps_succ_of_step (hFailed.step_eq_next hc hh rfl),
      record_answered (s := openAccepted s) _ hb, hq]
    rfl

/-! ## Frames -/

/-- What the next state of a one-step request can be: no change in a busy core, a response, a response with
the accumulator written, or the end of the session. -/
inductive OneStepAnswer (i : Instr) (s : State) : State → Prop
  | notAccepted : OneStepAnswer i s s
  | responded (code : BitVec 3) (data : BitVec 40) (hq : s.seqState = .idle) :
    OneStepAnswer i s (respond code data s)
  | crcWritten (acc : Byte) (hq : s.seqState = .idle) (hi : i = .crcClear ∨ ∃ b, i = .crcUpdate b) :
    OneStepAnswer i s (crcRespond acc s)
  | closed (hq : s.seqState = .idle) (hi : i = .closeSession) :
    OneStepAnswer i s (doneWith 0#40 { s with sessionOpen := false })

/-- An acceptance whose start is a one-step answer is one too. -/
theorem OneStepAnswer.of_accept {i : Instr} {f : State → State} {s t : State} (h : accept f s = .next t)
    (hStart : s.seqState = .idle → OneStepAnswer i s (f { s with rspValid := false })) :
    OneStepAnswer i s t := by
  rcases accept_next h with ⟨hq, rfl⟩ | ⟨-, rfl⟩
  · exact hStart hq
  · exact .notAccepted

/-- `CLOSE` ends the session or is refused. -/
theorem closeStart_answer {s : State} (hq : s.seqState = .idle) :
    OneStepAnswer .closeSession s (closeStart { s with rspValid := false }) := by
  by_cases ho : s.sessionOpen = true
  · rw [closeStart_of_open (s := { s with rspValid := false }) ho]
    exact .closed hq rfl
  · rw [closeStart_of_closed (s := { s with rspValid := false }) ((Bool.not_eq_true _).mp ho)]
    exact .responded (resultCode .refused) 0#40 hq

/-- Settles O46: each of the instructions is an acceptance that answers at once. -/
theorem oneStepRequestFrame : Obligations.OneStepRequestFrame := by
  intro i s t h hi
  have hAnswer : OneStepAnswer i s t := by
    cases i with
    | crcClear => exact .of_accept h fun hq => .crcWritten _ hq (.inl rfl)
    | crcUpdate b => exact .of_accept h fun hq => .crcWritten _ hq (.inr ⟨b, rfl⟩)
    | unpack | scale | reserved7 | reserved8F => exact .of_accept h fun hq => .responded _ _ hq
    | closeSession => exact .of_accept h closeStart_answer
    | openSession | readMeasurement | init | trig | srst => exact hi.elim
  cases hAnswer with
  | notAccepted => simp
  | responded code data hq => simp [hq]
  | crcWritten acc hq hi =>
    refine ⟨rfl, hq.symm, rfl, fun _ => rfl, rfl, rfl, rfl, rfl, fun _ => rfl, fun hClear hUpdate => ?_⟩
    rcases hi with rfl | ⟨b, rfl⟩
    · exact absurd rfl hClear
    · exact absurd rfl (hUpdate b)
  | closed hq hi =>
    exact ⟨rfl, hq.symm, rfl, fun _ => rfl, rfl, rfl, rfl, rfl, fun hClose => absurd hi hClose,
      fun _ _ => rfl⟩

namespace Acceptance

variable {r : Request} {s t : State}

/-- No request changes the configuration. -/
theorem cfg_eq (h : Acceptance r s t) : t.cfg = s.cfg := by
  cases h <;> rfl

/-- No request counts an attempt. -/
theorem attempt_eq (h : Acceptance r s t) : t.attempt = s.attempt := by
  cases h <;> rfl

/-- No request is a move of the host. -/
theorem host_eq (h : Acceptance r s t) : t.host = s.host := by
  cases h <;> rfl

end Acceptance

/-- `OPEN` and `READ` are the operations of opcodes 4 and 5 (R59). -/
theorem exists_request_of_open_or_read {i : Instr} (hi : i = .openSession ∨ i = .readMeasurement) :
    ∃ r : Request, decodeRequest r = i ∧ (r.op = 0x4#4 ∨ r.op = 0x5#4) := by
  rcases hi with rfl | rfl
  · exact ⟨⟨0x4#4, 0#48⟩, rfl, .inl rfl⟩
  · exact ⟨⟨0x5#4, 0#48⟩, rfl, .inr rfl⟩

/-- Settles O47: a busy core does not change, and of the requests those of opcodes 4 and 5 write neither the
accumulator nor `SESSION_OPEN`, and the response only to refuse. -/
theorem acceptanceFrame : Obligations.AcceptanceFrame := by
  intro i s t hi h
  obtain ⟨r, rfl, hop⟩ := exists_request_of_open_or_read hi
  by_cases hq : s.seqState = .idle
  · have hAcc := exec_request_acceptance hq h
    have hSession : t.sessionOpen = s.sessionOpen :=
      hAcc.sessionOpen_writers.resolve_right fun ⟨hop', _⟩ => by simp [hop'] at hop
    have hCrc : t.crcAcc = s.crcAcc :=
      hAcc.crcAcc_writers.resolve_right fun hop' => by rcases hop' with h | h <;> simp [h] at hop
    refine ⟨hAcc.cfg_eq, hSession, hAcc.attempt_eq, fun k => by rw [hAcc.frame_eq], hCrc, hAcc.port_eq,
      hAcc.host_eq, hAcc.bus_eq, hAcc.trace_eq, fun hKept => ?_⟩
    rcases hAcc.response_writers with ⟨hValid, -⟩ | ⟨-, -, hResponse⟩
    · simp [hValid, hq] at hKept
    · exact hResponse
  · rw [hostRequestNotAcceptedWhileBusy r s hq] at h
    cases h
    simp

/-! ## `READ` and the leftovers of earlier operations (R118) -/

/-- The registers in which earlier operations leave values: `FRAME`, `ATTEMPT`, `CRC_ACC`, and the response. -/
structure Leftovers where
  attempt : BitVec 4
  frame : Frame
  crcAcc : Byte
  rspCode : BitVec 3
  rspData : BitVec 40

/-- The leftovers of a core. -/
def leftoversOf (s : State) : Leftovers :=
  { attempt := s.attempt, frame := s.frame, crcAcc := s.crcAcc, rspCode := s.rspCode, rspData := s.rspData }

namespace Leftovers

/-- The core `s` with other leftovers. -/
def putIn (l : Leftovers) (s : State) : State :=
  { s with attempt := l.attempt, frame := l.frame, crcAcc := l.crcAcc,
           rspCode := l.rspCode, rspData := l.rspData }

/-- The leftovers with a response posted. -/
def posted (l : Leftovers) (code : BitVec 3) (data : BitVec 40) : Leftovers :=
  { l with rspCode := code, rspData := data }

/-- The leftovers agree with the core in every register that is live: `ATTEMPT` while it polls, `FRAME` from
a whole receive to the end of its use, the response where there is one. `CRC_ACC` is never live. -/
structure Fit (l : Leftovers) (s : State) : Prop where
  attempt : polling s.seqState = true → l.attempt = s.attempt
  frame : received s.seqState = true → l.frame = s.frame
  response : s.rspValid = true → s.rspCode = l.rspCode ∧ s.rspData = l.rspData

/-- After a completion only the response is live. -/
theorem fit_respond (l : Leftovers) (code : BitVec 3) (data : BitVec 40) (s : State) :
    (l.posted code data).Fit (respond code data s) :=
  ⟨nofun, nofun, fun _ => ⟨rfl, rfl⟩⟩

end Leftovers

/-- A row of the tables reads live registers only: with other leftovers that fit the core, the same row is
there, and its leftovers fit again. -/
theorem SeqTransition.with_leftovers {s u : State} (h : SeqTransition s u) {l : Leftovers} (hl : l.Fit s) :
    ∃ l' : Leftovers, l'.Fit u ∧ SeqTransition (l.putIn s) (l'.putIn u) := by
  cases h with
  | waits h => exact ⟨l, hl, .waits h⟩
  | openSent rest hq hb => exact ⟨l, ⟨nofun, nofun, hl.response⟩, .openSent rest hq hb⟩
  | openFailed rest hq hb => exact ⟨_, l.fit_respond _ _ _, .openFailed rest hq hb⟩
  | opened hq => exact ⟨_, l.fit_respond _ _ _, .opened hq⟩
  | initSent rest hq hb => exact ⟨l, ⟨nofun, nofun, hl.response⟩, .initSent rest hq hb⟩
  | initFailed rest hq hb => exact ⟨_, l.fit_respond _ _ _, .initFailed rest hq hb⟩
  | initWaited hq => exact ⟨l, ⟨nofun, nofun, hl.response⟩, .initWaited hq⟩
  | trigSent rest hq hb => exact ⟨l, ⟨nofun, nofun, hl.response⟩, .trigSent rest hq hb⟩
  | trigFailed rest hq hb => exact ⟨_, l.fit_respond _ _ _, .trigFailed rest hq hb⟩
  | settled hq =>
    exact ⟨{ l with attempt := 1#4 }, ⟨fun _ => rfl, nofun, hl.response⟩, .settled hq⟩
  | recvBusy f rest hq hb hf =>
    have hAttempt : l.attempt = s.attempt := hl.attempt (by rw [hq]; rfl)
    exact ⟨{ l with frame := f }, ⟨fun _ => hAttempt, fun _ => rfl, hl.response⟩,
      .recvBusy f rest hq hb hf⟩
  | recvReady f rest hq hb hf =>
    exact ⟨{ l with frame := f }, ⟨nofun, fun _ => rfl, hl.response⟩, .recvReady f rest hq hb hf⟩
  | recvShort k rest hq hb => exact ⟨_, l.fit_respond _ _ _, .recvShort k rest hq hb⟩
  | recvFailed rest hq hb => exact ⟨_, l.fit_respond _ _ _, .recvFailed rest hq hb⟩
  | retried hq ha =>
    have hAttempt : l.attempt = s.attempt := hl.attempt (by rw [hq]; rfl)
    have hRetry : l.attempt ≠ nPoll := hAttempt ▸ ha
    exact ⟨{ l with attempt := l.attempt + 1#4 },
      ⟨fun _ => congrArg (· + 1#4) hAttempt, nofun, hl.response⟩, .retried hq hRetry⟩
  | exhausted hq ha =>
    have hAttempt : l.attempt = s.attempt := hl.attempt (by rw [hq]; rfl)
    exact ⟨_, l.fit_respond _ _ _, .exhausted hq (hAttempt.trans ha)⟩
  | crcRight hq hc =>
    have hFrame : l.frame = s.frame := hl.frame (by rw [hq]; rfl)
    rw [← hFrame] at hc
    exact ⟨{ l with crcAcc := crc8 (frameChecked l.frame) }, ⟨nofun, fun _ => hFrame, hl.response⟩,
      .crcRight hq hc⟩
  | crcWrong hq hc =>
    have hFrame : l.frame = s.frame := hl.frame (by rw [hq]; rfl)
    rw [← hFrame] at hc
    exact ⟨_, Leftovers.fit_respond { l with crcAcc := crc8 (frameChecked l.frame) } _ _ _,
      .crcWrong hq hc⟩
  | decoded hq =>
    have hFrame : l.frame = s.frame := hl.frame (by rw [hq]; rfl)
    refine ⟨_, l.fit_respond _ _ _, ?_⟩
    rw [← hFrame]
    exact .decoded hq

/-- The step of the sequencer with other leftovers that fit: the same next state but for leftovers that fit
again, or the same fault. -/
theorem seqStep_putIn {l : Leftovers} {s : State} (hl : l.Fit s) :
    (∃ (u : State) (l' : Leftovers),
      SeqTransition s u ∧ l'.Fit u ∧ SeqTransition (l.putIn s) (l'.putIn u)) ∨
    (seqStep s = .fault .malformedAnswer ∧ seqStep (l.putIn s) = .fault .malformedAnswer) := by
  obtain ⟨hNext | hFault, hMalformed⟩ := (seqStep_outcome s).next_or_fault
  · obtain ⟨u, hu⟩ := hNext
    have hRow := seqStep_transition hu
    obtain ⟨l', hl', hRow'⟩ := hRow.with_leftovers hl
    exact .inl ⟨u, l', hRow, hl', hRow'⟩
  · obtain ⟨-, hMalformed'⟩ := (seqStep_outcome (l.putIn s)).next_or_fault
    exact .inr ⟨hFault, hMalformed'.mpr (hMalformed.mp hFault)⟩

/-- A run that stops with a fault in its first step. -/
theorem runSteps_succ_of_fault {s : State} {r : Fault} (h : step s = .fault r) (n : Nat) :
    runSteps (n + 1) s = .fault r := by
  simp only [runSteps, h]

/-- A run that is refused in its first step. -/
theorem runSteps_succ_of_refused {s : State} {r : Refusal} (h : step s = .refused r) (n : Nat) :
    runSteps (n + 1) s = .refused r := by
  simp only [runSteps, h]

/-- Without a request at the port, a run with other leftovers that fit looks the same from outside. -/
theorem alikeOutside_runSteps_putIn {l : Leftovers} {s : State} (hl : l.Fit s)
    (hc : configLegal s.cfg = true) (hh : s.host = []) (hp : s.port = none) (n : Nat) :
    alikeOutside (runSteps n s) (runSteps n (l.putIn s)) := by
  induction n generalizing l s with
  | zero => exact ⟨rfl, rfl, rfl, rfl, rfl, hl.response⟩
  | succ n ih =>
    rcases seqStep_putIn hl with ⟨u, l', hRow, hl', hRow'⟩ | ⟨hFault, hFault'⟩
    · rw [runSteps_succ_of_step (hRow.step_eq_next hc hh hp),
        runSteps_succ_of_step (hRow'.step_eq_next (s := l.putIn s) hc hh hp)]
      exact ih hl' (hRow.cfg_eq ▸ hc) (hRow.host_eq.trans hh) (hRow.port_eq.trans hp)
    · rw [runSteps_succ_of_fault ((step_eq_seqStep hc hh hp).trans hFault),
        runSteps_succ_of_fault ((step_eq_seqStep (s := l.putIn s) hc hh hp).trans hFault')]
      exact rfl

/-- The start of `READ` reads no leftovers, and those it leaves fit. -/
theorem readStart_putIn (l : Leftovers) {s : State} (hv : s.rspValid = false) :
    ∃ l' : Leftovers, l'.Fit (readStart s) ∧ readStart (l.putIn s) = l'.putIn (readStart s) := by
  have hResponse : s.rspValid = true → s.rspCode = l.rspCode ∧ s.rspData = l.rspData := by simp [hv]
  cases ho : s.sessionOpen with
  | false =>
    rw [readStart_of_closed ho, readStart_of_closed (s := l.putIn s) ho]
    exact ⟨_, l.fit_respond _ _ _, rfl⟩
  | true =>
    cases hp : s.cfg.policy with
    | everyRead =>
      rw [readStart_of_everyRead ho hp, readStart_of_everyRead (s := l.putIn s) ho hp]
      exact ⟨l, ⟨nofun, nofun, hResponse⟩, rfl⟩
    | onceAtOpen =>
      rw [readStart_of_onceAtOpen ho hp, readStart_of_onceAtOpen (s := l.putIn s) ho hp]
      exact ⟨l, ⟨nofun, nofun, hResponse⟩, rfl⟩

/-- The start of `READ` leaves the port alone. -/
@[simp] theorem readStart_port (s : State) : (readStart s).port = s.port := by
  unfold readStart; repeat' split
  all_goals rfl

/-- Settles O59: an illegal configuration refuses both runs; otherwise both accept the `READ`, and from there
they differ in leftovers that are not live. -/
theorem readIndependentOfLeftovers : Obligations.ReadIndependentOfLeftovers := by
  intro n s t arg hqs hqt hhs hht hps hpt hCfg hSession hBus hTrace
  cases hc : configLegal s.cfg with
  | false =>
    rw [runSteps_succ_of_refused (step_of_configLegal_eq_false hc),
      runSteps_succ_of_refused (step_of_configLegal_eq_false (s := t) (hCfg ▸ hc))]
    exact rfl
  | true =>
    have hAccepted : { t with port := none, rspValid := false } =
        (leftoversOf t).putIn { s with port := none, rspValid := false } := by
      simp only [leftoversOf, Leftovers.putIn, hqs, hqt, hhs, hht, hCfg, hSession, hBus, hTrace]
    obtain ⟨l, hl, hStart⟩ :=
      readStart_putIn (leftoversOf t) (s := { s with port := none, rspValid := false }) rfl
    rw [runSteps_succ_of_step (step_readMeasurement hc hqs hhs hps),
      runSteps_succ_of_step (step_readMeasurement (s := t) (hCfg ▸ hc) hqt hht (hpt.trans hps)),
      hAccepted, hStart]
    exact alikeOutside_runSteps_putIn hl (by simpa using hc) (by simpa using hhs) (by simp) n

end Sys2Proof.Machine
end

section
/-! Proofs of the family 44_wire_commands.md: the commands `INIT` and `SRST` (R123, R125), and which commands
the core sends at all (R46). -/

namespace Sys2Proof.Machine

/-! ## The send of a wire command (R39) -/

/-- A send that the bus answers with `ok`: the answer is taken, the event recorded, and the core reacts. -/
theorem busSend_of_ok {s : State} {rest : List BusAnswer} (bytes : List Byte)
    (react : SendAnswer → State → State) (hb : s.bus = .ok :: rest) :
    busSend bytes react s =
      .next (react .ok { s with bus := rest, trace := s.trace ++ [.send busAddr bytes .ok] }) := by
  rw [← record_answered _ hb]
  simp only [busSend, hb]

/-- A send that the bus answers with `err`, in the same manner. -/
theorem busSend_of_err {s : State} {rest : List BusAnswer} (bytes : List Byte)
    (react : SendAnswer → State → State) (hb : s.bus = .err :: rest) :
    busSend bytes react s =
      .next (react .err { s with bus := rest, trace := s.trace ++ [.send busAddr bytes .err] }) := by
  rw [← record_answered _ hb]
  simp only [busSend, hb]

/-! ## `SRST` (R125) -/

/-- A send in the trace after a step was there before it, or is one of `INIT` or `TRIG`. -/
theorem StepEvent.send_mem {s t : State} (h : StepEvent s t) {a : BusAddr} {bytes : List Byte}
    {ans : SendAnswer} (hSent : Event.send a bytes ans ∈ t.trace) :
    Event.send a bytes ans ∈ s.trace ∨ bytes = cmdInit ∨ bytes = cmdTrig := by
  cases h with
  | silent htrace => exact .inl (htrace ▸ hSent)
  | delayed ms htrace => exact .inl (by simpa [htrace] using hSent)
  | received ans' htrace => exact .inl (by simpa [htrace] using hSent)
  | sent bytes' ans' htrace hbytes =>
    rw [htrace, List.mem_append, List.mem_singleton] at hSent
    rcases hSent with hOld | hNew
    · exact .inl hOld
    · cases hNew
      exact .inr (hbytes.imp And.right And.right)

/-- Settles O37: `SRST` is a send whose answer nothing follows, and the sends that a step adds are those of
the two other commands. -/
theorem softResetIsABareSendNoStepMakes : Obligations.SoftResetIsABareSendNoStepMakes := by
  refine ⟨fun s rest => ⟨busSend_of_ok cmdSrst fun _ u => u, busSend_of_err cmdSrst fun _ u => u⟩,
    fun s t h a ans hSent => ?_⟩
  have hOther : ¬([0xBA#8] = cmdInit ∨ [0xBA#8] = cmdTrig) := by decide
  exact ((step_stepEvent h).send_mem hSent).resolve_right hOther

/-! ## `INIT` (R98, R115, R123) -/

/-- A send depends on the reaction only in the state the send starts from. -/
theorem busSend_congr {f g : SendAnswer → State → State} {s : State} (bytes : List Byte)
    (h : ∀ a u, u.seqState = s.seqState → f a u = g a u) : busSend bytes f s = busSend bytes g s := by
  unfold busSend
  split
  case h_2 | h_3 => exact congrArg _ (h _ _ rfl)
  all_goals rfl

/-- In `OPEN_SEND` it is `OPEN` that waits for the answer to `INIT`. -/
theorem exec_init_of_openSend {s : State} (hq : s.seqState = .openSend) :
    exec .init s = busSend cmdInit openReact s :=
  busSend_congr cmdInit fun a u hu => by simp only [initAnswered, hu, hq]

/-- In `INIT_SEND` it is `READ` that waits for the answer to `INIT`. -/
theorem exec_init_of_initSend {s : State} (hq : s.seqState = .initSend) :
    exec .init s = busSend cmdInit initReact s :=
  busSend_congr cmdInit fun a u hu => by simp only [initAnswered, hu, hq]

/-- Settles O35: which operation waits for the answer to `INIT`, and the reaction of that operation. -/
theorem initCommandResult : Obligations.InitCommandResult :=
  fun _ _ => ⟨fun hq hb => (exec_init_of_openSend hq).trans (busSend_of_ok cmdInit openReact hb),
    fun hq hb => (exec_init_of_openSend hq).trans (busSend_of_err cmdInit openReact hb),
    fun hq hb => (exec_init_of_initSend hq).trans (busSend_of_ok cmdInit initReact hb),
    fun hq hb => (exec_init_of_initSend hq).trans (busSend_of_err cmdInit initReact hb)⟩

end Sys2Proof.Machine
end

section
/-! Proofs of the family 60_exceptions.md: completion (R134, R135), refusal (R133), the transaction that is
never answered (R149), and what a measurement is answered from (R142). -/

namespace Sys2Proof.Machine

/-! ## The unanswered transaction (R149) -/

/-- A core that transacts is busy. -/
theorem ne_idle_of_transacting {q : SeqState} (h : transacting q = true) : q ≠ .idle := by
  rintro rfl
  cases h

/-- Any number of steps leaves alone a state that one step leaves alone. -/
theorem runSteps_of_step_eq_self {s : State} (h : step s = .next s) (n : Nat) : runSteps n s = .next s := by
  induction n with
  | zero => rfl
  | succ n ih => exact (runSteps_succ_of_step h n).trans ih

/-- Settles O16: without an answer and without a move of the host a step is the waiting row of the tables,
and so is every further one. -/
theorem unansweredTransactionNeverEnds : Obligations.UnansweredTransactionNeverEnds := by
  intro s n hc hTransacts hb hh
  have hBusy := ne_idle_of_transacting hTransacts
  have hWaits : SeqTransition s s := .waits (.inr ⟨hTransacts, hb⟩)
  have hStep : step s = .next s := (step_busy_no_moves hc hh hBusy).trans hWaits.seqStep_eq
  exact ⟨runSteps_of_step_eq_self hStep n, decide_eq_true hBusy⟩

/-! ## Completion (R134, R135) -/

/-- Settles O18: both completions are `respond`, with the numbers of R129. -/
theorem completionPostsTheResponse : Obligations.CompletionPostsTheResponse :=
  fun _ => ⟨rfl, rfl, rfl, rfl, rfl, fun _ => rfl⟩

/-! ## Refusal (R64, R133) -/

/-- A reserved request on an idle core, field by field. -/
theorem accept_refused_of_idle {s : State} (hq : s.seqState = .idle) :
    accept (failWith .refused) s = .next { s with rspValid := true, rspCode := 7#3, rspData := 0#40 } := by
  rw [accept_idle _ hq, failWith_refused_of_idle (s := { s with rspValid := false }) hq]

/-- Opcodes from 7 on are reserved. -/
theorem decodeRequest_of_seven_le {r : Request} (h : 7 ≤ r.op.toNat) :
    decodeRequest r = .reserved7 ∨ decodeRequest r = .reserved8F r.op := by
  rcases Nat.eq_or_lt_of_le h with hSeven | hEight
  · exact .inl (by simp only [decodeRequest, ← hSeven])
  · exact .inr (decodeRequest_of_eight_le hEight r.arg)

/-- Settles O19: the refusing branches of `READ`, `CLOSE` and `OPEN`, and the reserved opcodes. -/
theorem refusedRequestsOnlyRespond : Obligations.RefusedRequestsOnlyRespond := by
  intro s hq
  obtain ⟨-, -, hReadRows⟩ := readAcceptance
  obtain ⟨-, -, hCloseRows⟩ := closeResult
  obtain ⟨hRead, -⟩ := hReadRows s hq
  obtain ⟨-, hClose⟩ := hCloseRows s hq
  obtain ⟨-, hOpen⟩ := openAcceptance s hq
  refine ⟨hRead, hClose, hOpen, accept_refused_of_idle hq, fun _ => accept_refused_of_idle hq, fun r hr => ?_⟩
  rcases decodeRequest_of_seven_le hr with hReserved | hReserved <;> rw [hReserved]
  all_goals exact accept_refused_of_idle hq

/-! ## What a measurement is answered from (R142) -/

/-- A row of the `READ` table that posts a response is that of `DECODE`, or one that fails. -/
theorem SeqTransition.response_of_reading {s t : State} (h : SeqTransition s t)
    (hRead : reading s.seqState = true) (hNone : s.rspValid = false) (hPosted : t.rspValid = true) :
    (s.seqState = .decode ∧ t = doneWith (frameMeasurement s.frame) s) ∨
      (t.rspCode ≠ 0#3 ∧ t.rspData = 0#40) := by
  cases h with
  | decoded hq => exact .inl ⟨hq, rfl⟩
  | initFailed | trigFailed | recvShort | recvFailed | exhausted | crcWrong => exact .inr ⟨nofun, rfl⟩
  | openFailed _ hq | opened hq => simp [hq, reading] at hRead
  | _ => simp [hNone] at hPosted

/-- Settles O53: while a `READ` is in progress no response stands, so the row of the step posted it, and in
`DECODE` the invariant says what is known of the frame. -/
theorem measurementOnlyFromCheckedFrame : Obligations.MeasurementOnlyFromCheckedFrame := by
  rintro s t ⟨-, -, ⟨-, -, hNoResponse⟩, -, -, ⟨hReceived, -, hNotBusy, hChecked⟩, -⟩ hRead hr h hPosted
  have hBusy : s.seqState ≠ .idle := fun hq => by simp [hq, reading] at hRead
  rcases step_next_without_reset h hr with ⟨hq, -⟩ | hRow
  · exact absurd hq hBusy
  rcases hRow.response_of_reading (by simpa using hRead) (by simpa using hNoResponse hBusy) hPosted with
    ⟨hq, rfl⟩ | hFailed
  · rw [hostTurn_seqState] at hq
    obtain ⟨hCrc, -⟩ := hChecked hq
    refine .inl ⟨rfl, hq, hReceived (by rw [hq]; rfl), ?_, of_decide_eq_true hCrc, ?_⟩
    · exact (frameBusy_eq_false_iff s.frame).mp (hNotBusy (.inr hq))
    · rw [doneWith_rspData, hostTurn_frame, frameMeasurement_eq_frameWord]
  · exact .inr hFailed

end Sys2Proof.Machine
end

section
/-! Proofs of the family 70_reset_and_hazards.md: the reset input (R151, R152), the spacing of receives
(R155, R157) and where a run stands still (R165). -/

namespace Sys2Proof.Machine

/-! ## The spacing of receives (R155, R157) -/

/-- The two lower bounds of R6. -/
theorem configLegal_eq_true_iff (c : Config) :
    configLegal c = true ↔ 75 ≤ c.tSettleMs ∧ 10 ≤ c.tInitMs := by
  simp only [configLegal, Bool.and_eq_true, decide_eq_true_eq]

/-- A delay of at least 75 ms after a delivered `TRIG` makes a receive possible (R155). -/
theorem recvReady_delay_of_afterTrigger {past : List Event} {d : Nat} (h : afterTrigger past = true)
    (hd : 75 ≤ d) : recvReady (.delay d :: past) = true := by
  unfold afterTrigger at h
  split at h
  · simpa [recvReady, hd] using h
  · cases h

/-- A delay of at least 10 ms after a receive makes the next one possible (R157). -/
theorem recvReady_delay_of_afterReceive {past : List Event} {d : Nat} (h : afterReceive past = true)
    (hd : 10 ≤ d) : recvReady (.delay d :: past) = true := by
  unfold afterReceive at h
  split at h
  · simpa [recvReady] using hd
  · cases h

/-- The event of a step keeps the past spaced: of the four kinds only a receive needs anything of it, and a
receive is made in `POLL_RECV` only. -/
theorem StepEvent.recvSpaced_trace {s t : State} (h : StepEvent s t)
    (hPast : recvSpaced s.trace.reverse = true)
    (hReady : s.seqState = .pollRecv → recvReady s.trace.reverse = true) :
    recvSpaced t.trace.reverse = true := by
  cases h with
  | silent htrace => rwa [htrace]
  | delayed ms htrace | sent bytes ans htrace => simpa [htrace, recvSpaced] using hPast
  | received ans htrace hq => simp [htrace, recvSpaced, hPast, hReady hq]

/-- An accepted request makes no event and leads to none of the states that speak of the last one. -/
theorem Acceptance.spacingInv {r : Request} {s t : State} (h : Acceptance r s t)
    (hPast : recvSpaced s.trace.reverse = true) : SpacingInv t := by
  refine ⟨by rwa [h.trace_eq], ?_⟩
  cases h <;> exact ⟨nofun, nofun, nofun⟩

/-- Every row of the transition tables keeps the spacing: the rows into `SETTLE_WAIT`, `POLL_RECV` and
`POLL_WAIT` make the very event that state speaks of. -/
theorem SeqTransition.spacingInv {s t : State} (h : SeqTransition s t) (hc : configLegal s.cfg = true)
    (hInv : SpacingInv s) : SpacingInv t := by
  obtain ⟨hPast, hTriggered, hReady, hReceived⟩ := hInv
  obtain ⟨hSettle, -⟩ := (configLegal_eq_true_iff s.cfg).mp hc
  refine ⟨h.stepEvent.recvSpaced_trace hPast hReady, ?_⟩
  cases h with
  | waits => exact ⟨hTriggered, hReady, hReceived⟩
  | trigSent => exact ⟨fun _ => by simp [afterTrigger, cmdTrig], nofun, nofun⟩
  | settled hq =>
    refine ⟨nofun, fun _ => ?_, nofun⟩
    simpa using recvReady_delay_of_afterTrigger (hTriggered hq) hSettle
  | recvBusy => exact ⟨nofun, nofun, fun _ => by simp [afterReceive]⟩
  | retried hq =>
    refine ⟨nofun, fun _ => ?_, nofun⟩
    simpa using recvReady_delay_of_afterReceive (hReceived hq) (Nat.le_refl tPollMs)
  | _ => exact ⟨nofun, nofun, nofun⟩

/-- The host's move neither moves the sequencer nor makes an event. -/
theorem spacingInv_hostTurn {s : State} (h : SpacingInv s) : SpacingInv (hostTurn s) := by
  simpa only [SpacingInv, hostTurn_trace, hostTurn_seqState] using h

/-- Settles O55: a reset and an accepted request leave the past as it is and wait for no receive; a row of
the transition tables keeps the spacing. -/
theorem stepKeepsReceiveSpacing : Obligations.StepKeepsReceiveSpacing := by
  intro s t hInv h
  obtain ⟨hc, ⟨-, rfl⟩ | ⟨hr, -⟩⟩ := step_next h
  · obtain ⟨hPast, -⟩ := hInv
    exact ⟨hPast, nofun, nofun, nofun⟩
  · rcases step_next_without_reset h hr with ⟨-, r, -, hAcc⟩ | hRow
    · obtain ⟨hPast, -⟩ := spacingInv_hostTurn hInv
      exact hAcc.spacingInv hPast
    · exact hRow.spacingInv (by rwa [hostTurn_cfg]) (spacingInv_hostTurn hInv)

/-! ## Where a run stands still (R165) -/

/-- Every row of the transition tables other than the waiting one moves the sequencer. -/
theorem SeqTransition.waits_or_moves {s t : State} (h : SeqTransition s t) :
    (s.seqState = .idle ∨ (transacting s.seqState = true ∧ s.bus = [])) ∨ t.seqState ≠ s.seqState := by
  cases h with
  | waits h => exact .inl h
  | openSent _ hq | openFailed _ hq | opened hq | initSent _ hq | initFailed _ hq | initWaited hq
  | trigSent _ hq | trigFailed _ hq | settled hq | recvBusy _ _ hq | recvReady _ _ hq | recvShort _ _ hq
  | recvFailed _ hq | retried hq | exhausted hq | crcRight hq | crcWrong hq | decoded hq =>
    exact .inr (by simp [hq])

/-- The sequencer's step leaves a state as it is exactly where the core is idle or waits for an answer that
the script does not hold. -/
theorem seqStep_eq_self_iff (s : State) :
    seqStep s = .next s ↔ s.seqState = .idle ∨ (transacting s.seqState = true ∧ s.bus = []) :=
  ⟨fun h => (seqStep_transition h).waits_or_moves.resolve_right (· rfl),
    fun h => (SeqTransition.waits h).seqStep_eq⟩

/-- An idle core's step leaves the state as it is exactly where the port is empty: a request there is
taken. -/
theorem coreStep_eq_self_iff_of_idle {s : State} (hq : s.seqState = .idle) :
    coreStep s = .next s ↔ s.port = none := by
  refine ⟨fun h => ?_, coreStep_waiting hq⟩
  cases hp : s.port with
  | none => rfl
  | some r =>
    rw [coreStep_idle hq hp] at h
    have hTaken : s.port = none := (exec_request_acceptance (s := { s with port := none }) hq h).port_eq
    exact hp.symm.trans hTaken

/-- With no move of the host to come, a run is over where the core is idle and its port empty. -/
theorem runOver_iff_of_no_moves {s : State} (hh : s.host = []) :
    runOver s = true ↔ s.seqState = .idle ∧ s.port = none := by
  simp [runOver_iff, hh]

/-- With no move of the host to come, a step leaves the state as it is exactly where the run is over or the
script has run out of answers. -/
theorem step_eq_self_iff_of_no_moves {s : State} (hc : configLegal s.cfg = true) (hh : s.host = []) :
    step s = .next s ↔ runOver s = true ∨ answersRunOut s = true := by
  rw [runOver_iff_of_no_moves hh, answersRunOut_iff]
  by_cases hq : s.seqState = .idle
  · rw [step_eq hc (resetPending_no_moves hh), hostTurn_no_moves hh, coreStep_eq_self_iff_of_idle hq]
    simp [hq, transacting]
  · rw [step_busy_no_moves hc hh hq, seqStep_eq_self_iff]
    simp [hq]

/-- A run that is over ends a complete test or one with answers left, as its script is used up or not. -/
theorem runOver_iff_testComplete_or_answersLeftOver (s : State) :
    runOver s = true ↔ testComplete s = true ∨ answersLeftOver s = true := by
  rw [testComplete_iff, answersLeftOver_iff, ← and_or_left, and_iff_left (Classical.em _)]

/-- A complete test is not malformed: its script is used up, and its core does not wait for an answer. -/
theorem not_testMalformed_of_testComplete {s : State} (h : testComplete s = true) :
    ¬ testMalformed s = true := by
  obtain ⟨hOver, hb⟩ := (testComplete_iff s).mp h
  obtain ⟨hIdle, -⟩ := (runOver_iff s).mp hOver
  rw [testMalformed_iff, answersLeftOver_iff, answersRunOut_iff]
  rintro (⟨-, hLeft⟩ | ⟨hTransacts, -⟩)
  · exact hLeft hb
  · exact ne_idle_of_transacting hTransacts hIdle

/-- Settles O60: a step stands still where the run is over or out of answers, and a run that is over is a
complete test or has answers left. -/
theorem runStandsStillOnlyAtItsEnd : Obligations.RunStandsStillOnlyAtItsEnd := by
  intro s hc hh
  refine ⟨?_, fun ⟨hComplete, hMalformed⟩ => not_testMalformed_of_testComplete hComplete hMalformed⟩
  rw [step_eq_self_iff_of_no_moves hc hh, runOver_iff_testComplete_or_answersLeftOver, testMalformed_iff,
    or_assoc]

/-! ## Reset (R151, R152) -/

/-- A pending reset takes the place of the core's step. -/
theorem step_of_resetPending {s : State} (hc : configLegal s.cfg = true) (hr : resetPending s = true) :
    step s = .next (applyReset s) := by
  simp only [step, hc, hr]

/-- Settles O1: the step is `applyReset`, which takes every register from `State.reset`. -/
theorem resetInputGivesResetValues : Obligations.ResetInputGivesResetValues := by
  intro s rest hc hh
  have hHost : (applyReset s).host = rest := congrArg List.tail hh
  exact ⟨applyReset s, step_of_resetPending hc ((resetPending_iff s).mpr ⟨rest, hh⟩),
    rfl, rfl, rfl, rfl, rfl, rfl, rfl, rfl, rfl, rfl, rfl, rfl, rfl, hHost, rfl, rfl, rfl⟩

/-- The reset values satisfy the invariant of the machine: an idle core, code 0, no event. -/
theorem machineInv_reset : MachineInv State.reset := by
  have hAttempt : AttemptInv State.reset := ⟨by decide, nofun⟩
  have hResponse : ResponseInv State.reset := ⟨by decide, fun _ => rfl, fun _ => rfl⟩
  have hSession : SessionInv State.reset := ⟨nofun, nofun⟩
  have hPolicy : PolicyInv State.reset := nofun
  have hFrame : FrameInv State.reset := ⟨nofun, nofun, nofun, nofun⟩
  have hTrace : TraceInv State.reset := nofun
  exact ⟨by decide, hAttempt, hResponse, hSession, hPolicy, hFrame, hTrace⟩

/-- Settles O3: `machineInv_reset`, and the spacing of an idle core without a past. -/
theorem invariantsHoldAtReset : Obligations.InvariantsHoldAtReset :=
  ⟨machineInv_reset, rfl, nofun, nofun, nofun⟩

end Sys2Proof.Machine
end

section
/-! Proofs of the family other: the reset state (R151), the round trip of decoding and encoding (R54, R59 to
R64), and the invariant of the machine. -/

namespace Sys2Proof

/-! ## Decoding and encoding -/

/-- The opcodes of the row `RESERVED.8_F` (R64): bit 3 is set from 8 on. -/
theorem getLsbD_three_iff (op : BitVec 4) : op.getLsbD 3 = true ↔ 8 ≤ op.toNat := by
  rw [show op.getLsbD 3 = decide (8 ≤ op.toNat) from BitVec.getLsbD_last op, decide_eq_true_iff]

/-- Every request is a well-formed operation: opcode 8 and above are what the other rows leave. -/
theorem wellFormed_decodeRequest (r : Request) : (decodeRequest r).wellFormed = true := by
  unfold decodeRequest
  split
  case h_9 =>
    have hReserved : 8 ≤ r.op.toNat := by grind
    exact (getLsbD_three_iff r.op).mpr hReserved
  all_goals rfl

/-- Settles O6: a request by its operation, a byte sequence by the command it is. -/
theorem decodedInstructionIsWellFormed : Obligations.DecodedInstructionIsWellFormed := by
  intro c i h
  cases c with
  | request r =>
    cases h
    exact wellFormed_decodeRequest r
  | wire bytes => rcases (decodeWire_eq_ok_iff bytes i).mp h with ⟨-, rfl⟩ | ⟨-, rfl⟩ | ⟨-, rfl⟩ <;> rfl

/-- The argument of `UNPACK` as a number: six bytes, the first one most significant (R61). -/
theorem unpackArg_toNat (d1 d2 d3 d4 d5 d6 : Byte) :
    (joinBits 48 (joinBits 24 (joinBits 16 d1 d2) d3) (joinBits 24 (joinBits 16 d4 d5) d6)).toNat =
      d1.toNat * 2 ^ 40 + d2.toNat * 2 ^ 32 + d3.toNat * 2 ^ 24 + d4.toNat * 2 ^ 16 + d5.toNat * 2 ^ 8 +
        d6.toNat := by
  simp (disch := decide) only [joinBits_toNat]
  omega

/-- The argument of `UNPACK` is cut where its bytes were joined. -/
theorem decode_encode_unpack (d1 d2 d3 d4 d5 d6 : Byte) :
    decode (encode (.unpack d1 d2 d3 d4 d5 d6)) = .ok (.unpack d1 d2 d3 d4 d5 d6) := by
  have hArg := unpackArg_toNat d1 d2 d3 d4 d5 d6
  simp only [encode, decode, decodeRequest, extractLsb'_eq_ofNat_div, hArg, Except.ok.injEq,
    Instr.unpack.injEq, BitVec.toNat_eq, BitVec.toNat_ofNat]
  omega

/-- The argument of `SCALE` is cut where its raw values were joined (R62). -/
theorem decode_encode_scale (h t : Raw) : decode (encode (.scale h t)) = .ok (.scale h t) := by
  have hHum : (joinBits 48 h t).extractLsb' 20 20 = h := extractLsb'_joinBits_hi (by decide) h t
  have hTemp : (joinBits 48 h t).extractLsb' 0 20 = t := extractLsb'_joinBits_lo (by decide) h t
  simp only [encode, decode, decodeRequest, hHum, hTemp]
  rfl

/-- The byte of `CRC.UPDATE` is the lowest of its argument (R60). -/
theorem decode_encode_crcUpdate (b : Byte) : decode (encode (.crcUpdate b)) = .ok (.crcUpdate b) := by
  have hByte : (b.setWidth 48).extractLsb' 0 8 = b := by
    rw [BitVec.extractLsb'_setWidth_of_le (by decide), BitVec.extractLsb'_eq_self]
  simp only [encode, decode, decodeRequest, hByte]
  rfl

/-- Settles O8: the operands of the three rows that have any are read back, the opcode of `RESERVED.8_F` is one
of its row, and the other rows are evaluated. -/
theorem decodeOfEncodeIsIdentity : Obligations.DecodeOfEncodeIsIdentity := by
  intro i hi
  cases i with
  | crcUpdate b => exact decode_encode_crcUpdate b
  | unpack d1 d2 d3 d4 d5 d6 => exact decode_encode_unpack d1 d2 d3 d4 d5 d6
  | scale h t => exact decode_encode_scale h t
  | reserved8F op => exact congrArg _ (decodeRequest_of_eight_le ((getLsbD_three_iff op).mp hi) 0#48)
  | crcClear | openSession | readMeasurement | closeSession | reserved7 | init | trig | srst => rfl

end Sys2Proof

namespace Sys2Proof.Machine

/-! ## The reset state (R151) -/

/-- Settles O2: every field evaluated, the frame buffer byte by byte. -/
theorem stateResetIsTheResetTable : Obligations.StateResetIsTheResetTable := by
  have hFrame : ∀ i, frameByte State.reset.frame i = 0#8 := by decide
  exact ⟨rfl, rfl, rfl, hFrame, rfl, rfl, rfl, rfl, rfl, rfl, rfl, rfl, rfl, rfl, rfl⟩

/-! ## The invariant of the machine: what keeps each of its parts

The configuration and the legal events need only the event of a step; the other parts speak of the position
of the sequencer, and are kept row by row. -/

/-- A step whose event belongs to its state adds a legal event to the trace or none. -/
theorem StepEvent.traceInv {s t : State} (h : StepEvent s t) (hCfg : t.cfg = s.cfg) (hInv : TraceInv s) :
    TraceInv t := by
  have hAdded : ∀ e, t.trace = s.trace ++ [e] → eventLegal s.cfg e = true → TraceInv t := by
    intro e htrace he
    rw [TraceInv, htrace, hCfg]
    simpa [or_imp, forall_and] using ⟨hInv, he⟩
  cases h with
  | silent htrace => rwa [TraceInv, htrace, hCfg]
  | delayed ms htrace _ hms =>
    refine hAdded _ htrace ?_
    rcases hms with ⟨-, rfl⟩ | ⟨-, rfl⟩ | ⟨-, rfl⟩ <;> simp [eventLegal, tPollMs]
  | sent bytes ans htrace hbytes =>
    refine hAdded _ htrace ?_
    rcases hbytes with ⟨-, rfl⟩ | ⟨-, rfl⟩ <;> rfl
  | received ans htrace => exact hAdded _ htrace rfl

/-- A failure posts the code of its kind and no payload. -/
theorem responseInv_failWith (kind : ResultKind) (s : State) : ResponseInv (failWith kind s) :=
  ⟨by cases kind <;> simp [resultCode], fun _ => rfl, nofun⟩

/-- A success posts code 0, with any payload. -/
theorem responseInv_doneWith (data : BitVec 40) (s : State) : ResponseInv (doneWith data s) :=
  ⟨by simp, fun h => absurd rfl h, nofun⟩

/-! ### An accepted request -/

namespace Acceptance

variable {r : Request} {s t : State}

/-- An accepted request counts no attempt and leads to no polling state. -/
theorem attemptInv (h : Acceptance r s t) (hInv : AttemptInv s) : AttemptInv t := by
  obtain ⟨hMax, -⟩ := hInv
  refine ⟨h.attempt_eq ▸ hMax, ?_⟩
  cases h <;> exact nofun

/-- An accepted request is answered, or the old response is no longer valid. -/
theorem responseInv (h : Acceptance r s t) (hInv : ResponseInv s) : ResponseInv t := by
  obtain ⟨hCodes, hZero, -⟩ := hInv
  cases h with
  | answeredAtOnce | crcWritten | closed => exact responseInv_doneWith _ _
  | refused => exact responseInv_failWith _ _
  | openStarted | readStartedByInit | readStartedByTrig => exact ⟨hCodes, hZero, fun _ => rfl⟩

/-- An accepted request leads to no state after a receive. -/
theorem frameInv (h : Acceptance r s t) : FrameInv t := by
  cases h <;> exact ⟨nofun, nofun, nofun, nofun⟩

end Acceptance

/-- `OPEN` starts without a session only, `READ` with one only, and by `INIT` under `EVERY_READ` only. -/
theorem sessionInv_policyInv_of_exec_request {r : Request} {s t : State} (hq : s.seqState = .idle)
    (h : exec (decodeRequest r) s = .next t) : SessionInv t ∧ PolicyInv t := by
  rcases exec_request_cases hq h with ⟨data, rfl⟩ | ⟨acc, -, rfl⟩ | rfl | ⟨ho, rfl⟩ | ⟨ho, hp, rfl⟩ |
    ⟨ho, -, rfl⟩ | ⟨-, -, rfl⟩
  · exact ⟨⟨nofun, nofun⟩, nofun⟩
  · exact ⟨⟨nofun, nofun⟩, nofun⟩
  · exact ⟨⟨nofun, nofun⟩, nofun⟩
  · exact ⟨⟨fun _ => ho, nofun⟩, nofun⟩
  · exact ⟨⟨nofun, fun _ => ho⟩, fun _ => hp⟩
  · exact ⟨⟨nofun, fun _ => ho⟩, nofun⟩
  · exact ⟨⟨nofun, nofun⟩, nofun⟩

/-- An accepted request keeps the invariant. -/
theorem machineInv_of_exec_request {r : Request} {s t : State} (hq : s.seqState = .idle)
    (h : exec (decodeRequest r) s = .next t) (hInv : MachineInv s) : MachineInv t := by
  obtain ⟨hc, hAttempt, hResponse, -, -, -, hTrace⟩ := hInv
  have hAcc := exec_request_acceptance hq h
  obtain ⟨hSession, hPolicy⟩ := sessionInv_policyInv_of_exec_request hq h
  have hEvent : StepEvent s t := .silent hAcc.trace_eq hAcc.bus_eq
  exact ⟨hAcc.cfg_eq ▸ hc, hAcc.attemptInv hAttempt, hAcc.responseInv hResponse, hSession, hPolicy,
    hAcc.frameInv, hEvent.traceInv hAcc.cfg_eq hTrace⟩

/-! ### A row of the transition tables -/

namespace SeqTransition

variable {s t : State}

/-- `ATTEMPT` is set to 1 before the polling states are entered, and is counted up below 10 only. -/
theorem attemptInv (h : SeqTransition s t) (hInv : AttemptInv s) : AttemptInv t := by
  obtain ⟨hMax, hLive⟩ := hInv
  cases h with
  | waits => exact ⟨hMax, hLive⟩
  | settled => exact ⟨by simp, fun _ => by simp⟩
  | recvBusy _ _ hq => exact ⟨hMax, fun _ => hLive (by rw [hq]; rfl)⟩
  | retried hq ha =>
    have hBelow : s.attempt.toNat < 10 := Nat.lt_of_le_of_ne hMax (mt (attempt_eq_nPoll_iff _).mpr ha)
    have hNext : (s.attempt + 1#4).toNat = s.attempt.toNat + 1 := attempt_succ_toNat hBelow
    exact ⟨hNext ▸ hBelow, fun _ => hNext ▸ Nat.le_add_left 1 _⟩
  | _ => exact ⟨hMax, nofun⟩

/-- A row completes the operation, or no response stands before it and none after it. -/
theorem responseInv (h : SeqTransition s t) (hInv : ResponseInv s) : ResponseInv t := by
  obtain ⟨hCodes, hZero, hNone⟩ := hInv
  cases h with
  | waits => exact ⟨hCodes, hZero, hNone⟩
  | opened | decoded => exact responseInv_doneWith _ _
  | openFailed | initFailed | trigFailed | recvShort | recvFailed | exhausted | crcWrong =>
    exact responseInv_failWith _ _
  | openSent _ hq | initSent _ hq | initWaited hq | trigSent _ hq | settled hq | recvBusy _ _ hq
  | recvReady _ _ hq | retried hq | crcRight hq => exact ⟨hCodes, hZero, fun _ => hNone (by simp [hq])⟩

/-- A row stays in its operation, `OPEN` or `READ`, and leaves the session alone, or ends it. -/
theorem sessionInv (h : SeqTransition s t) (hInv : SessionInv s) : SessionInv t := by
  obtain ⟨hOpening, hReading⟩ := hInv
  cases h with
  | waits => exact ⟨hOpening, hReading⟩
  | openSent _ hq => exact ⟨fun _ => hOpening (by rw [hq]; rfl), nofun⟩
  | initSent _ hq | initWaited hq | trigSent _ hq | settled hq | recvBusy _ _ hq | recvReady _ _ hq
  | retried hq | crcRight hq => exact ⟨nofun, fun _ => hReading (by rw [hq]; rfl)⟩
  | _ => exact ⟨nofun, nofun⟩

/-- The only row into an initialising state of `READ` starts from the other one. -/
theorem policyInv (h : SeqTransition s t) (hInv : PolicyInv s) : PolicyInv t := by
  cases h with
  | waits => exact hInv
  | initSent _ hq => exact fun _ => hInv (.inl hq)
  | _ => exact nofun

/-- The rows of a whole receive record what they store and branch on its BUSY bit; the row into `DECODE`
has computed the CRC and found it right. -/
theorem frameInv (h : SeqTransition s t) (hInv : FrameInv s) : FrameInv t := by
  obtain ⟨hReceived, hBusy, hReady, hChecked⟩ := hInv
  cases h with
  | waits => exact ⟨hReceived, hBusy, hReady, hChecked⟩
  | recvBusy f _ _ _ hf => exact ⟨fun _ => List.getLast?_concat, fun _ => hf, nofun, nofun⟩
  | recvReady f _ _ _ hf => exact ⟨fun _ => List.getLast?_concat, nofun, fun _ => hf, nofun⟩
  | crcRight hq hc =>
    exact ⟨fun _ => hReceived (by rw [hq]; rfl), nofun, fun _ => hReady (.inl hq),
      fun _ => ⟨decide_eq_true hc, hc⟩⟩
  | _ => exact ⟨nofun, nofun, nofun, nofun⟩

/-- Every row of the tables keeps the invariant. -/
theorem machineInv (h : SeqTransition s t) (hInv : MachineInv s) : MachineInv t := by
  obtain ⟨hc, hAttempt, hResponse, hSession, hPolicy, hFrame, hTrace⟩ := hInv
  exact ⟨h.cfg_eq ▸ hc, h.attemptInv hAttempt, h.responseInv hResponse, h.sessionInv hSession,
    h.policyInv hPolicy, h.frameInv hFrame, h.stepEvent.traceInv h.cfg_eq hTrace⟩

end SeqTransition

/-! ### Every step -/

/-- The reset input keeps the configuration and the events; the registers are those of `State.reset`. -/
theorem machineInv_applyReset {s : State} (hInv : MachineInv s) : MachineInv (applyReset s) := by
  obtain ⟨hc, -, -, -, -, -, hTrace⟩ := hInv
  obtain ⟨-, hAttempt, hResponse, hSession, -, -, -⟩ := machineInv_reset
  exact ⟨hc, hAttempt, hResponse, hSession, nofun, ⟨nofun, nofun, nofun, nofun⟩, hTrace⟩

/-- The host's move writes the port and the list of moves, and nothing else. -/
theorem exists_hostTurn_eq (s : State) :
    ∃ port host, hostTurn s = { s with port := port, host := host } := by
  unfold hostTurn; repeat' split
  all_goals exact ⟨_, _, rfl⟩

/-- The invariant speaks of nothing that the host's move writes. -/
theorem machineInv_hostTurn {s : State} (hInv : MachineInv s) : MachineInv (hostTurn s) := by
  obtain ⟨port, host, hTurn⟩ := exists_hostTurn_eq s
  rw [hTurn]
  exact hInv

/-- Settles O54: a step is a reset, or after the host's move an accepted request or a row of the transition
tables; each keeps the invariant. -/
theorem stepKeepsInvariant : Obligations.StepKeepsInvariant := by
  intro s t hInv h
  have hTurn := machineInv_hostTurn hInv
  obtain ⟨-, ⟨-, rfl⟩ | ⟨-, ⟨hq, r, -, hExec⟩ | ⟨-, hRow⟩⟩⟩ := step_transition h
  · exact machineInv_applyReset hInv
  · rw [← hostTurn_seqState s] at hq
    exact machineInv_of_exec_request (s := { hostTurn s with port := none }) hq hExec hTurn
  · exact hRow.machineInv hTurn

end Sys2Proof.Machine
end
